-- ==== Sys2Proof/Word.lean ====
section
/-! DEFINITION. The two widths the block's registers have (10_state.md R13) and the byte sequence
of 00_scope.md R8. Byte arithmetic is modulo 256, which is `BitVec 8`'s own. -/

namespace Sys2Proof

/-- A byte: an 8-bit register, or one unit of a buffer (R8). -/
abbrev Byte := BitVec 8

/-- A 16-bit register or request word (R13, R53). -/
abbrev Word := BitVec 16

/-- A byte sequence in wire order: its head is the first byte on the wire (R8). -/
abbrev Bytes := List Byte

end Sys2Proof
end

