-- ==== Sys2Proof/Syntax.lean ====
section
/-! DEFINITION. The operations of the block, one constructor per row of the opcode table
(30_encoding.md R54, R55, R59). The operands are the flags of the request word; byte sequences come
from the buffers. -/

namespace Sys2Proof

/-- An operation the host can issue through REQ (R53). -/
inductive Instr where
  /-- CSUM: checksum of a byte sequence (R82) -/
  | csum
  /-- MKCMD: build a command frame (R83) -/
  | mkcmd
  /-- MKDX: build a data-exchange frame (R84) -/
  | mkdx
  /-- ENC: encode the current frame (R85) -/
  | enc
  /-- ACKCHK: detect a sentinel (R86) -/
  | ackchk
  /-- DEC with EXP = 0: expect a device-to-host data frame (R87) -/
  | decD2h
  /-- DEC with EXP = 1: expect a host-to-device data frame (R87) -/
  | decH2d
  /-- DEC with EXP = 2: expect the ACK sentinel (R87) -/
  | decAck
  /-- PS_HARD: DOWN = 1 hard power-down, DOWN = 0 power-up (R97) -/
  | psHard (down : Bool)
  /-- PS_ENABLE: EN (R98) -/
  | psEnable (en : Bool)
  /-- PS_PRE: RESP and INIT (R99) -/
  | psPre (resp init : Bool)
  /-- PS_POST: OK and STEST (R100) -/
  | psPost (ok stest : Bool)
deriving DecidableEq, Repr

end Sys2Proof
end

