-- ==== Sys2Proof/Decode.lean ====
section
/-! DEFINITION. The request-word decoder of 30_encoding.md R58, total on every 16-bit word, and the
encoder written from the words of R59 and R75. -/

namespace Sys2Proof

/-- Why a request word is illegal (R56, R57). -/
inductive DecodeError where
  /-- a reserved operation code -/
  | badOpcode
  /-- a reserved flag bit is 1 -/
  | reservedFlags
  /-- DEC with EXP = 3 -/
  | badExpect
deriving DecidableEq, Repr

/-- `w[7:0]`, the operation code (R54). -/
def opcOf (w : Word) : Byte := w.extractLsb' 0 8

/-- `w[15:8]`, the flags (R54). -/
def flagsOf (w : Word) : Byte := w.extractLsb' 8 8

/-- An operation without flags: `w[15:8]` must be 0 (R57). -/
def decodePlain (i : Instr) (fl : Byte) : Except DecodeError Instr :=
  if fl = 0 then .ok i else .error .reservedFlags

/-- DEC: `w[15:10]` must be 0, then `EXP = w[9:8]` selects the expectation and 3 is illegal (R57, R58). -/
def decodeDec (fl : Byte) : Except DecodeError Instr :=
  if fl.extractLsb' 2 6 ≠ 0 then .error .reservedFlags
  else match fl.extractLsb' 0 2 with
    | 0 => .ok .decD2h
    | 1 => .ok .decH2d
    | 2 => .ok .decAck
    | _ => .error .badExpect

/-- An operation with one flag in bit 8: `w[15:9]` must be 0 (R57). -/
def decodeFlag (mk : Bool → Instr) (fl : Byte) : Except DecodeError Instr :=
  if fl.extractLsb' 1 7 ≠ 0 then .error .reservedFlags else .ok (mk (fl.getLsbD 0))

/-- An operation with flags in bits 8 and 9: `w[15:10]` must be 0 (R57). -/
def decodeTwoFlags (mk : Bool → Bool → Instr) (fl : Byte) : Except DecodeError Instr :=
  if fl.extractLsb' 2 6 ≠ 0 then .error .reservedFlags else .ok (mk (fl.getLsbD 0) (fl.getLsbD 1))

/-- `decode` of R58, in its order. -/
def decode (w : Word) : Except DecodeError Instr :=
  if opcOf w = 0x01 then decodePlain .csum (flagsOf w)
  else if opcOf w = 0x02 then decodePlain .mkcmd (flagsOf w)
  else if opcOf w = 0x03 then decodePlain .mkdx (flagsOf w)
  else if opcOf w = 0x04 then decodePlain .enc (flagsOf w)
  else if opcOf w = 0x05 then decodePlain .ackchk (flagsOf w)
  else if opcOf w = 0x06 then decodeDec (flagsOf w)
  else if opcOf w = 0x10 then decodeFlag .psHard (flagsOf w)
  else if opcOf w = 0x11 then decodeFlag .psEnable (flagsOf w)
  else if opcOf w = 0x12 then decodeTwoFlags .psPre (flagsOf w)
  else if opcOf w = 0x13 then decodeTwoFlags .psPost (flagsOf w)
  else .error .badOpcode

/-- One flag as bit 8 of the request word (R55). -/
def flag8 (b : Bool) : Word := if b then 0x0100 else 0

/-- One flag as bit 9 of the request word (R55). -/
def flag9 (b : Bool) : Word := if b then 0x0200 else 0

/-- The request word of an operation (R59, R75). -/
def encode : Instr → Word
  | .csum => 0x0001
  | .mkcmd => 0x0002
  | .mkdx => 0x0003
  | .enc => 0x0004
  | .ackchk => 0x0005
  | .decD2h => 0x0006
  | .decH2d => 0x0106
  | .decAck => 0x0206
  | .psHard down => 0x0010 + flag8 down
  | .psEnable en => 0x0011 + flag8 en
  | .psPre resp init => 0x0012 + flag8 resp + flag9 init
  | .psPost ok stest => 0x0013 + flag8 ok + flag9 stest

/-- What the decoder reads from the table word `w` of `nbits` bits. A request word has 16 bits, and the
host writes it whole, so it has no byte order (R43, R53); a wider word is no request word (log 13). -/
def decodeTableWord (nbits w : Nat) : Option Instr :=
  if nbits ≤ 16 then
    match decode (BitVec.ofNat 16 (w % 2 ^ nbits)) with
    | .ok i => some i
    | .error _ => none
  else none

end Sys2Proof
end

