-- ==== Sys2Proof/Config.lean ====
section
/-! DEFINITION. The parameters of 00_scope.md R5: the sizes the spec fixes, what one construction of
the block fixes, and the two construction values the spec leaves free. -/

namespace Sys2Proof

/-- `P_BUF_BYTES`: the size of IBUF and of OBUF (R5, R36). -/
abbrev bufBytes : Nat := 262

/-- `P_FBUF_BYTES`: the size of FBUF (R5, R36). -/
abbrev fbufBytes : Nat := 254

/-- `P_NOT_READY_POLICY`: what PS_PRE does with a non-init exchange while READY = 0 (R5, R28). -/
inductive NotReadyPolicy where
  /-- the exchange is admitted (ADMIT) -/
  | accept
  /-- the exchange fails with NotReadyError (REJECT) -/
  | reject
deriving DecidableEq, Repr, Inhabited

/-- What construction fixes besides HAS_PLINE (R5). No step changes it. -/
structure Params where
  /-- `P_MAX_PAYLOAD`: the largest payload a build accepts, 1 to 254 (R5). -/
  maxPayload : Fin 255
  /-- `P_NOT_READY_POLICY` (R5). -/
  notReady : NotReadyPolicy
deriving DecidableEq, Repr

/-- FREE VALUE (log 4): the construction input HAS_PLINE of `State.reset` (R128). It has no body. -/
opaque Config.hasPline : Bool

/-- FREE VALUE (log 4): the OPEN parameter P_NOT_READY_POLICY of `State.reset` (R5, D23). It has no body. -/
opaque Config.notReadyPolicy : NotReadyPolicy

/-- `P_MAX_PAYLOAD` at `State.reset`: the value column of R5. -/
def Config.maxPayload : Fin 255 := 254

end Sys2Proof
end

