-- ==== Sys2Proof/Machine/Types.lean ====
section
/-! DEFINITION. The closed sets of names the spec uses: buffer spaces, host steps, device power
states, completion codes and their causes, and what the decoder recognises. Their code points are in
Machine/Flags.lean. -/

namespace Sys2Proof.Machine

/-- The byte spaces (20_memory.md R36). -/
inductive Space where
  | ibuf
  | fbuf
  | obuf
deriving DecidableEq, Repr

/-- One past the largest index of a space (R36). -/
def Space.size : Space → Nat
  | .ibuf => bufBytes
  | .fbuf => fbufBytes
  | .obuf => bufBytes

/-- The bytes of one space that have been written since reset, by rising index. An index that is not
listed has not been written and has no value (R46). -/
abbrev Memory := List Host.Cell

/-- One step of the host (R44), or a construction (70_reset_and_hazards.md R128, log 5). -/
inductive HostStep where
  /-- `RegRead(n)` -/
  | regRead (n : Nat)
  /-- `RegWrite(n, v)`; for `n = 0` it issues the operation `v` -/
  | regWrite (n : Nat) (v : Word)
  /-- `BufRead(S, i)` -/
  | bufRead (S : Space) (i : Nat)
  /-- `BufWrite(S, i, v)` -/
  | bufWrite (S : Space) (i : Nat) (v : Byte)
  /-- construction with the input HAS_PLINE -/
  | construct (hasPline : Bool)
deriving DecidableEq, Repr

/-- What a host read returns: a byte, or a 16-bit register whole (R43). -/
inductive HostData where
  | byte (v : Byte)
  | word (v : Word)
deriving DecidableEq, Repr

/-- The two families of operations, and the request word itself when no operation runs
(30_encoding.md R54; 60_exceptions.md R113). -/
inductive Family where
  | codec
  | power
  | request
deriving DecidableEq, Repr

/-- The device power states of 10_state.md R26. -/
inductive PState where
  | active
  | softSave
  | hardDown
deriving DecidableEq, Repr

/-- The actions of 30_encoding.md R73. -/
inductive Action where
  | none
  | wake
  | sleep
  | runInit
deriving DecidableEq, Repr

/-- The completion codes of 30_encoding.md R70, the Exchange Engine's three included. -/
inductive StatusCode where
  | ok
  | checksumMismatch
  | malformedFrame
  | unexpectedFrameType
  | noHardPowerControl
  | poweredDown
  | notReady
  | operandError
  | illegalOperation
  | sequenceError
  | concurrentCommand
  | transmitFailure
  | deviceApplication
deriving DecidableEq, Repr

/-- The class column of R70. -/
inductive StatusClass where
  | success
  | frameError
  | power
  | operand
  | request
  | sequence
  | engine
deriving DecidableEq, Repr

/-- Every error the block raises, with its cause (30_encoding.md R71; 60_exceptions.md R110). -/
inductive Err where
  | checksumLcs
  | checksumDcs
  | malformedShort
  | malformedStart
  | malformedZeroLen
  | malformedTruncated
  | malformedPostamble
  | unexpectedSawAck
  | unexpectedSawNack
  | unexpectedSawData
  | unexpectedDir
  | noHardPowerControl
  | poweredDown
  | notReady
  | operandEmpty
  | operandTooLarge
  | operandIlenRange
  | illegalBadOpcode
  | illegalReservedFlags
  | illegalBadExpect
  | sequenceNoFrame
  | sequenceXactOpen
  | sequenceNoXact
deriving DecidableEq, Repr

/-- DEC's expectation operand `EXP` (30_encoding.md R55). -/
inductive Expect where
  | d2h
  | h2d
  | ack
deriving DecidableEq, Repr

/-- The four outcomes of `classify` (40_frame_codec.md R81). -/
inductive Classified where
  | ack
  | nack
  | data (dir : Byte) (payload : Bytes)
  | fail (e : Err)
deriving DecidableEq, Repr

/-- The stage of an exchange the host is in when it reads a codec outcome (40_frame_codec.md R93). -/
inductive Stage where
  | ackStage
  | responseStage
deriving DecidableEq, Repr

/-- How the source's taxonomy names a codec outcome in a stage (R93; 60_exceptions.md R111). -/
inductive HostReport where
  /-- no error: the ACK, or a response frame, was accepted -/
  | accepted
  /-- a `FrameError`, terminal -/
  | frameError
  /-- a transmission failure, retried by the Exchange Engine -/
  | transmissionFailure
  /-- R93 and R111 give no report -/
  | other
deriving DecidableEq, Repr

end Sys2Proof.Machine
end

