-- ==== Sys2Proof/Machine/State.lean ====
section
/-! DEFINITION. The state of one block (10_state.md R13 to R35; 20_memory.md R36), why a step can stop,
and the state after construction. -/

namespace Sys2Proof.Machine

/-- Why a step stops. The hardware has none of these (60_exceptions.md R109); the block's own errors are
completion codes, not faults. Each ends the run and leaves no next state (log 12). -/
inductive Fault where
  /-- A host read or an operation read byte `i` of space `S`, which nothing has written since reset
  (20_memory.md R46). Raised by `State.bufRead`. Safe: no value is invented. -/
  | unwrittenRead (S : Space) (i : Nat)
  /-- A host read of REQ (20_memory.md R45). Raised by `regRead`. Safe. -/
  | reqRead
  /-- A host access to a register number above 11 (R45). Raised by `regRead` and `regWrite`. Safe. -/
  | noSuchRegister (n : Nat)
  /-- A host write to a read-only register (R45). Raised by `regWrite`. Safe. -/
  | readOnlyRegister (n : Nat)
  /-- A buffer index out of range (R45). Raised by `State.bufRead` and `bufWrite`. Safe. -/
  | indexOutOfRange (S : Space) (i : Nat)
  /-- A host write to FBUF or OBUF (R45). Raised by `bufWrite`. Safe. -/
  | readOnlyBuffer (S : Space)
deriving DecidableEq, Repr

/-- Why an operation has no meaning. No request word is refused (60_exceptions.md R109), so no meaning
answers with one. -/
inductive Refusal where
  /-- Raised by an arm of `exec` for an operation the model has not reached. Safe. No arm does. -/
  | notModelled (mnemonic : String)
deriving DecidableEq, Repr

/-- The state of one block, and of the host's side of its interface. -/
@[ext]
structure State where
  /-- STATUS, register 1 (R16) -/
  status : Byte
  /-- INFO, register 2 (R17) -/
  info : Byte
  /-- RESULT, register 3 (R18) -/
  result : Byte
  /-- ACTION, register 4 (R19) -/
  action : Byte
  /-- ILEN, register 5 (R20) -/
  ilen : Word
  /-- OLEN, register 6 (R21) -/
  olen : Word
  /-- FLEN, register 7 (R22) -/
  flen : Byte
  /-- FDIR, register 8 (R23) -/
  fdir : Byte
  /-- FSR, register 9 (R24) -/
  fsr : Byte
  /-- PSR, register 10 (R25) -/
  psr : Byte
  /-- CFG, register 11 (R32) -/
  cfg : Byte
  /-- IBUF (20_memory.md R37) -/
  ibuf : Memory
  /-- FBUF (R38) -/
  fbuf : Memory
  /-- OBUF (R39) -/
  obuf : Memory
  /-- the parameters of 00_scope.md R5, fixed by construction (log 3) -/
  params : Params
  /-- MODEL'S OWN: the host's steps not yet taken, oldest first (log 1) -/
  pending : List HostStep
  /-- MODEL'S OWN: what the host's latest read returned (log 2) -/
  readOut : Option HostData
deriving DecidableEq, Repr

/-- What a step or an operation answers. -/
abbrev Answer := Host.Outcome State Fault Refusal

/-- The state after construction with the input HAS_PLINE (10_state.md R35; 70_reset_and_hazards.md R128,
R129), the host having nothing pending. -/
def State.construct (hasPline : Bool) (p : Params) : State where
  status := 0x00
  info := 0x00
  result := 0x00
  action := 0x03
  ilen := 0x0000
  olen := 0x0000
  flen := 0x00
  fdir := 0x00
  fsr := 0x00
  psr := 0x80
  cfg := (BitVec.ofBool hasPline).setWidth 8
  ibuf := []
  fbuf := []
  obuf := []
  params := p
  pending := []
  readOut := none

/-- The machine right after reset. HAS_PLINE and P_NOT_READY_POLICY are free (log 4). -/
def State.reset : State :=
  State.construct Config.hasPline { maxPayload := Config.maxPayload, notReady := Config.notReadyPolicy }

end Sys2Proof.Machine
end

