-- ==== Sys2Proof/Machine/Wire.lean ====
section
/-! DEFINITION. The wire constants of 00_scope.md R5, each under its own name so that a corrected value
changes one place. -/

namespace Sys2Proof.Machine

/-- `SM`: preamble and start code (30_encoding.md R60). -/
def startMarker : Bytes := [0x00, 0x00, 0xFF]

/-- `EM`: the postamble (R60). -/
def endMarker : Byte := 0x00

/-- `DIR_H2D` (R63). -/
def dirH2d : Byte := 0xD4

/-- `DIR_D2H` (R63). -/
def dirD2h : Byte := 0xD5

/-- `ACK_SEQ` (R66). -/
def ackSeq : Bytes := [0x00, 0x00, 0xFF, 0x00, 0xFF, 0x00]

/-- `NACK_SEQ` (R67). -/
def nackSeq : Bytes := [0x00, 0x00, 0xFF, 0xFF, 0x00, 0x00]

/-- `CMD_DX`: the command code that wraps a data exchange (R74). -/
def cmdDx : Byte := 0x40

end Sys2Proof.Machine
end

