-- ==== Sys2Proof/Machine/Flags.lean ====
section
/-! DEFINITION. Code points of STATUS, INFO, RESULT and ACTION (30_encoding.md R70 to R73), and the
fields of FSR, PSR and CFG (10_state.md R24 to R33). -/

namespace Sys2Proof.Machine

/-- The value of a completion code (R70). -/
def StatusCode.code : StatusCode → Byte
  | .ok => 0x00
  | .checksumMismatch => 0x01
  | .malformedFrame => 0x02
  | .unexpectedFrameType => 0x03
  | .noHardPowerControl => 0x04
  | .poweredDown => 0x05
  | .notReady => 0x06
  | .operandError => 0x07
  | .illegalOperation => 0x08
  | .sequenceError => 0x09
  | .concurrentCommand => 0x10
  | .transmitFailure => 0x11
  | .deviceApplication => 0x12

/-- The class of a completion code (R70). -/
def StatusCode.cls : StatusCode → StatusClass
  | .ok => .success
  | .checksumMismatch => .frameError
  | .malformedFrame => .frameError
  | .unexpectedFrameType => .frameError
  | .noHardPowerControl => .power
  | .poweredDown => .power
  | .notReady => .power
  | .operandError => .operand
  | .illegalOperation => .request
  | .sequenceError => .sequence
  | .concurrentCommand => .engine
  | .transmitFailure => .engine
  | .deviceApplication => .engine

/-- The completion code an error is reported under (R71). -/
def Err.statusCode : Err → StatusCode
  | .checksumLcs => .checksumMismatch
  | .checksumDcs => .checksumMismatch
  | .malformedShort => .malformedFrame
  | .malformedStart => .malformedFrame
  | .malformedZeroLen => .malformedFrame
  | .malformedTruncated => .malformedFrame
  | .malformedPostamble => .malformedFrame
  | .unexpectedSawAck => .unexpectedFrameType
  | .unexpectedSawNack => .unexpectedFrameType
  | .unexpectedSawData => .unexpectedFrameType
  | .unexpectedDir => .unexpectedFrameType
  | .noHardPowerControl => .noHardPowerControl
  | .poweredDown => .poweredDown
  | .notReady => .notReady
  | .operandEmpty => .operandError
  | .operandTooLarge => .operandError
  | .operandIlenRange => .operandError
  | .illegalBadOpcode => .illegalOperation
  | .illegalReservedFlags => .illegalOperation
  | .illegalBadExpect => .illegalOperation
  | .sequenceNoFrame => .sequenceError
  | .sequenceXactOpen => .sequenceError
  | .sequenceNoXact => .sequenceError

/-- STATUS of an error (R70). -/
def Err.status (e : Err) : Byte := e.statusCode.code

/-- INFO of an error: its sub-code, or 0 for a code without one (R71). -/
def Err.info : Err → Byte
  | .checksumLcs => 0x01
  | .checksumDcs => 0x02
  | .malformedShort => 0x01
  | .malformedStart => 0x02
  | .malformedZeroLen => 0x03
  | .malformedTruncated => 0x04
  | .malformedPostamble => 0x05
  | .unexpectedSawAck => 0x01
  | .unexpectedSawNack => 0x02
  | .unexpectedSawData => 0x03
  | .unexpectedDir => 0x04
  | .noHardPowerControl => 0x00
  | .poweredDown => 0x00
  | .notReady => 0x00
  | .operandEmpty => 0x01
  | .operandTooLarge => 0x02
  | .operandIlenRange => 0x03
  | .illegalBadOpcode => 0x01
  | .illegalReservedFlags => 0x02
  | .illegalBadExpect => 0x03
  | .sequenceNoFrame => 0x01
  | .sequenceXactOpen => 0x02
  | .sequenceNoXact => 0x03

/-- RESULT after ACKCHK found no sentinel (R72). -/
def resultNone : Byte := 0x00
/-- RESULT for an ACK (R72). -/
def resultAck : Byte := 0x01
/-- RESULT for a NACK (R72). -/
def resultNack : Byte := 0x02
/-- RESULT for an accepted data frame (R72). -/
def resultData : Byte := 0x03

/-- The value of an action (R73). -/
def Action.code : Action → Byte
  | .none => 0x00
  | .wake => 0x01
  | .sleep => 0x02
  | .runInit => 0x03

/-- The encoding of a device power state (10_state.md R26). -/
def PState.code : PState → BitVec 2
  | .active => 0
  | .softSave => 1
  | .hardDown => 2

/-- `v` with bit `i` made `b`, every other bit kept. -/
def setBit (v : Byte) (i : Nat) (b : Bool) : Byte :=
  if b then v ||| (1#8 <<< i) else v &&& ~~~(1#8 <<< i)

/-- `v` with bits 1:0 made `x`, every other bit kept. -/
def setLowBits (v : Byte) (x : BitVec 2) : Byte := (v &&& 0xFC) ||| x.setWidth 8

/-- `FSR[0]`, FVALID (R24). -/
def State.fvalid (s : State) : Bool := s.fsr.getLsbD 0

/-- `PSR[1:0]`, PSTATE (R26). -/
def State.pstate (s : State) : BitVec 2 := s.psr.extractLsb' 0 2

/-- `PSR[2]`, PS_REQ (R27). -/
def State.psReq (s : State) : Bool := s.psr.getLsbD 2

/-- `PSR[3]`, READY (R28). -/
def State.ready (s : State) : Bool := s.psr.getLsbD 3

/-- `PSR[4]`, XACT (R29). -/
def State.xact (s : State) : Bool := s.psr.getLsbD 4

/-- `PSR[5]`, XRESP (R30). -/
def State.xresp (s : State) : Bool := s.psr.getLsbD 5

/-- `PSR[6]`, XINIT (R30). -/
def State.xinit (s : State) : Bool := s.psr.getLsbD 6

/-- `PSR[7]`, PLINE (R31). -/
def State.pline (s : State) : Bool := s.psr.getLsbD 7

/-- `CFG[0]`, HAS_PLINE (R32). -/
def State.hasPline (s : State) : Bool := s.cfg.getLsbD 0

/-- `FVALID <- b` (R24). -/
def State.setFvalid (s : State) (b : Bool) : State := { s with fsr := setBit s.fsr 0 b }

/-- `PSTATE <- p` (R26). -/
def State.setPstate (s : State) (p : PState) : State := { s with psr := setLowBits s.psr p.code }

/-- `PS_REQ <- b` (R27). -/
def State.setPsReq (s : State) (b : Bool) : State := { s with psr := setBit s.psr 2 b }

/-- `READY <- b` (R28). -/
def State.setReady (s : State) (b : Bool) : State := { s with psr := setBit s.psr 3 b }

/-- `XACT <- b` (R29). -/
def State.setXact (s : State) (b : Bool) : State := { s with psr := setBit s.psr 4 b }

/-- `XRESP <- b` (R30). -/
def State.setXresp (s : State) (b : Bool) : State := { s with psr := setBit s.psr 5 b }

/-- `XINIT <- b` (R30). -/
def State.setXinit (s : State) (b : Bool) : State := { s with psr := setBit s.psr 6 b }

/-- `PLINE <- b` (R31). -/
def State.setPline (s : State) (b : Bool) : State := { s with psr := setBit s.psr 7 b }

/-- `RESULT <- v` (R18). -/
def State.setResult (s : State) (v : Byte) : State := { s with result := v }

/-- `ACTION <- a` (R19). -/
def State.setAction (s : State) (a : Action) : State := { s with action := a.code }

end Sys2Proof.Machine
end

