-- ==== Sys2Proof/Machine/Frame.lean ====
section
/-! DEFINITION. Checksums, the wire frame and its recognition: the pure part of the codec
(00_scope.md R8; 30_encoding.md R60 to R69; 40_frame_codec.md R80, R81). -/

namespace Sys2Proof.Machine

/-- `sum8(b)` of R8. -/
def sum8 : Bytes → Byte
  | [] => 0
  | v :: b => v + sum8 b

/-- `neg8(v)` of R8: two's-complement negation of a byte. -/
def neg8 (v : Byte) : Byte := -v

/-- `b[i..j]` of R8, both ends included, empty when `j < i`. -/
def slice (b : Bytes) (i j : Nat) : Bytes := (b.drop i).take (j + 1 - i)

/-- `b[i]` of a sequence known to be long enough. -/
def byteAt (b : Bytes) (i : Nat) : Byte := b.getD i 0

/-- `frame_bytes(dir, p)` of R80. -/
def frameBytes (dir : Byte) (p : Bytes) : Bytes :=
  let len : Byte := BitVec.ofNat 8 (p.length + 1)
  startMarker ++ [len, neg8 len, dir] ++ p ++ [neg8 (sum8 (dir :: p)), endMarker]

/-- The tests of `classify` after the sentinels, on a sequence of at least 6 bytes that begins with the
start marker (R81). -/
def classifyData (b : Bytes) : Classified :=
  let len := byteAt b 3
  let l := len.toNat
  if len + byteAt b 4 ≠ 0 then .fail .checksumLcs
  else if len = 0 then .fail .malformedZeroLen
  else if b.length < l + 7 then .fail .malformedTruncated
  else if sum8 (slice b 5 (l + 5)) ≠ 0 then .fail .checksumDcs
  else if byteAt b (l + 6) ≠ endMarker then .fail .malformedPostamble
  else .data (byteAt b 5) (slice b 6 (l + 4))

/-- `classify(b, n)` of R81, `n` being the length of `b`. -/
def classify (b : Bytes) : Classified :=
  if b.length < 6 then .fail .malformedShort
  else if slice b 0 2 ≠ startMarker then .fail .malformedStart
  else if slice b 0 5 = ackSeq then .ack
  else if slice b 0 5 = nackSeq then .nack
  else classifyData b

/-- The sentinel test of ACKCHK (R86): the RESULT code of the first six bytes. -/
def sentinelResult (b : Bytes) : Byte :=
  if 6 ≤ b.length ∧ slice b 0 5 = ackSeq then 0x01
  else if 6 ≤ b.length ∧ slice b 0 5 = nackSeq then 0x02
  else 0x00

end Sys2Proof.Machine
end

