-- ==== Sys2Proof/Machine/Ops.lean ====
section
/-! DEFINITION. The named operations over buffers and registers that every meaning is written with:
one-byte and ranged buffer access (20_memory.md R44, R46; 00_scope.md R9), completion, and the error
completion, which is this block's form of taking an exception (60_exceptions.md R118, R119). -/

namespace Sys2Proof.Machine

/-- The byte at index `i`, if it has been written since reset (R46). -/
def Memory.read : Memory → Nat → Option Byte
  | [], _ => none
  | (a, v) :: m, i => if a = i then some v else Memory.read m i

/-- `m` with byte `v` written at index `i`, the indices still rising. -/
def Memory.write : Memory → Nat → Byte → Memory
  | [], i, v => [(i, v)]
  | (a, w) :: m, i, v =>
    if i < a then (i, v) :: (a, w) :: m
    else if a = i then (i, v) :: m
    else (a, w) :: Memory.write m i v

/-- `m` with the sequence `b` written from index `i` on. -/
def Memory.writeRange : Memory → Nat → Bytes → Memory
  | m, _, [] => m
  | m, i, v :: b => Memory.writeRange (Memory.write m i v) (i + 1) b

/-- Every index of `m` is at least `lo`, and the indices strictly rise. -/
def Memory.risesFrom : Nat → Memory → Bool
  | _, [] => true
  | lo, (a, _) :: m => decide (lo ≤ a) && Memory.risesFrom (a + 1) m

/-- The canonical form of a space of `size` bytes: indices strictly rise and lie below `size`. No listed
entry equals what an unlisted index reads as, since an unlisted index has no value. -/
def Memory.wf (size : Nat) (m : Memory) : Bool :=
  Memory.risesFrom 0 m && m.all fun c => decide (c.1 < size)

/-- The contents of a space. -/
def State.space (s : State) : Space → Memory
  | .ibuf => s.ibuf
  | .fbuf => s.fbuf
  | .obuf => s.obuf

/-- `s` with the contents of a space replaced. -/
def State.withSpace (s : State) (S : Space) (m : Memory) : State :=
  match S with
  | .ibuf => { s with ibuf := m }
  | .fbuf => { s with fbuf := m }
  | .obuf => { s with obuf := m }

/-- `BufRead(S, i)`: an index out of range faults (R45), an unwritten byte faults (R46). -/
def State.bufRead (s : State) (S : Space) (i : Nat) : Except Fault Byte :=
  if i < S.size then
    match (s.space S).read i with
    | some v => .ok v
    | none => .error (.unwrittenRead S i)
  else .error (.indexOutOfRange S i)

/-- `MemRead(S, i, n)`: the reads in rising order, so the lowest bad index faults (00_scope.md R9, log 7). -/
def State.memRead (s : State) (S : Space) (i : Nat) : Nat → Except Fault Bytes
  | 0 => .ok []
  | n + 1 =>
    match s.bufRead S i with
    | .error f => .error f
    | .ok v =>
      match State.memRead s S (i + 1) n with
      | .error f => .error f
      | .ok b => .ok (v :: b)

/-- `MemWrite(S, i, n, b)`, `n` being the length of `b` (00_scope.md R9). -/
def State.memWrite (s : State) (S : Space) (i : Nat) (b : Bytes) : State :=
  s.withSpace S ((s.space S).writeRange i b)

/-- `complete()`: STATUS and INFO report success (00_scope.md R9). -/
def State.complete (s : State) : State :=
  { s with status := StatusCode.ok.code, info := 0x00 }

/-- `raise E(info)`: the error completion of an operation of family `f`. STATUS and INFO take the
error's codes, and a failed power operation also writes ACTION <- NONE; nothing else changes (00_scope.md
R9; 60_exceptions.md R118, R119). A failed illegal request word is no power operation (R113). There is no
return from it (R120). -/
def State.raise (s : State) (f : Family) (e : Err) : State :=
  { s with
    status := e.status
    info := e.info
    action := if f = .power then Action.none.code else s.action }

/-- The error an illegal request word completes with (30_encoding.md R56, R57). -/
def illegalErr : DecodeError → Err
  | .badOpcode => .illegalBadOpcode
  | .reservedFlags => .illegalReservedFlags
  | .badExpect => .illegalBadExpect

/-- Hold a frame: payload into FBUF from index 0, then FLEN, FDIR and FVALID (40_frame_codec.md R83,
R84, R87). -/
def State.holdFrame (s : State) (dir : Byte) (p : Bytes) : State :=
  { s.memWrite .fbuf 0 p with
    flen := BitVec.ofNat 8 p.length
    fdir := dir
    fsr := setBit s.fsr 0 true }

/-- Put an encoded frame: its bytes into OBUF from index 0, then OLEN (40_frame_codec.md R85). -/
def State.putOutput (s : State) (f : Bytes) : State :=
  { s.memWrite .obuf 0 f with olen := BitVec.ofNat 16 f.length }

end Sys2Proof.Machine
end

