-- ==== Sys2Proof/Machine/Operands.lean ====
section
/-! DEFINITION. Where operations take their operands from: IBUF with ILEN (40_frame_codec.md R79), the
held frame (R85), the decoder's expectation and the exchange's latched flags (30_encoding.md R55;
41_power_fsm.md R96). -/

namespace Sys2Proof.Machine

/-- `operands()` of R79: an ILEN above the buffer fails, then all of `IBUF[0..ILEN-1]` is read, where an
unwritten byte faults; `k` continues with the bytes. -/
def withOperands (s : State) (k : Bytes → Answer) : Answer :=
  if bufBytes < s.ilen.toNat then .next (s.raise .codec .operandIlenRange)
  else
    match s.memRead .ibuf 0 s.ilen.toNat with
    | .error f => .fault f
    | .ok b => k b

/-- The frame operand of ENC (R85): FVALID = 0 fails, then `FBUF[0..FLEN-1]` is read; `k` continues with
the payload. -/
def withFrame (s : State) (k : Bytes → Answer) : Answer :=
  if s.fvalid = false then .next (s.raise .codec .sequenceNoFrame)
  else
    match s.memRead .fbuf 0 s.flen.toNat with
    | .error f => .fault f
    | .ok p => k p

/-- The direction byte a data expectation accepts: `(EXP = D2H) ? DIR_D2H : DIR_H2D` (R87). -/
def Expect.direction : Expect → Byte
  | .d2h => dirD2h
  | .h2d => dirH2d
  | .ack => dirH2d

/-- The exchange that ends is eligible for the post-exchange sleep: in success, respecting, not
state-establishing (R96). -/
def eligible (ok xresp stest : Bool) : Bool := ok && xresp && !stest

end Sys2Proof.Machine
end

