-- ==== Sys2Proof/Machine/Codec.lean ====
section
/-! DEFINITION. The meanings of the codec operations (40_frame_codec.md R82 to R87). Each checks in the
order of 60_exceptions.md R115. -/

namespace Sys2Proof.Machine

/-- CSUM (R82). -/
def execCsum (s : State) : Answer :=
  withOperands s fun b => .next (s.setResult (neg8 (sum8 b))).complete

/-- Build a frame from operand bytes `b`, whose payload is `wrap b` (R83, R84): an empty operand fails,
then a payload above `P_MAX_PAYLOAD` fails. -/
def buildFrame (wrap : Bytes → Bytes) (s : State) : Answer :=
  withOperands s fun b =>
    if b.length = 0 then .next (s.raise .codec .operandEmpty)
    else if s.params.maxPayload.val < (wrap b).length then .next (s.raise .codec .operandTooLarge)
    else .next (s.holdFrame dirH2d (wrap b)).complete

/-- MKCMD (R83): the payload is the command byte and its arguments. -/
def execMkcmd (s : State) : Answer := buildFrame (fun b => b) s

/-- MKDX (R84): the payload is `[CMD_DX] ++ [tagIndex] ++ data`. -/
def execMkdx (s : State) : Answer := buildFrame (fun b => cmdDx :: b) s

/-- ENC (R85). -/
def execEnc (s : State) : Answer :=
  withFrame s fun p => .next (s.putOutput (frameBytes s.fdir p)).complete

/-- ACKCHK (R86). -/
def execAckchk (s : State) : Answer :=
  withOperands s fun b => .next (s.setResult (sentinelResult b)).complete

/-- DEC after `classify`, for the expectation `exp` (R87). -/
def acceptFrame (exp : Expect) (s : State) : Classified → State
  | .fail e => s.raise .codec e
  | .ack =>
    if exp = .ack then (s.setResult resultAck).complete
    else s.raise .codec .unexpectedSawAck
  | .nack => s.raise .codec .unexpectedSawNack
  | .data dir p =>
    if exp = .ack then s.raise .codec .unexpectedSawData
    else if dir ≠ exp.direction then s.raise .codec .unexpectedDir
    else ((s.holdFrame dir p).setResult resultData).complete

/-- DEC for the expectation `exp` (R87). -/
def decodeFrame (exp : Expect) (s : State) : Answer :=
  withOperands s fun b => .next (acceptFrame exp s (classify b))

/-- DEC.D2H (R87). -/
def execDecD2h (s : State) : Answer := decodeFrame .d2h s

/-- DEC.H2D (R87). -/
def execDecH2d (s : State) : Answer := decodeFrame .h2d s

/-- DEC.ACK (R87). -/
def execDecAck (s : State) : Answer := decodeFrame .ack s

end Sys2Proof.Machine
end

