-- ==== Sys2Proof/Machine/Power.lean ====
section
/-! DEFINITION. The meanings of the power operations (41_power_fsm.md R97 to R100). Each checks in the
order of 60_exceptions.md R116, and none can fault. -/

namespace Sys2Proof.Machine

/-- The first check of PS_HARD that fails, if any (R97, R116). -/
def psHardError (s : State) : Option Err :=
  if s.hasPline = false then some .noHardPowerControl
  else if s.xact = true then some .sequenceXactOpen
  else none

/-- PS_HARD DOWN once its checks pass: the line to the power-down level, soft state and readiness lost
(R97). -/
def powerDown (s : State) : State :=
  ((((s.setPline false).setPstate .hardDown).setPsReq false).setReady false).setAction .none

/-- PS_HARD UP once its checks pass: from HARD_DOWN the line to the powered level and RUN_INIT, else a
no-op (R97). -/
def powerUp (s : State) : State :=
  if s.pstate = PState.hardDown.code then
    ((((s.setPline true).setPstate .active).setPsReq false).setReady false).setAction .runInit
  else s.setAction .none

/-- PS_HARD (R97). -/
def execPsHard (down : Bool) (s : State) : Answer :=
  .next (match psHardError s with
    | some e => s.raise .power e
    | none => (if down then powerDown s else powerUp s).complete)

/-- The first check of PS_ENABLE that fails, if any (R98, R116). -/
def psEnableError (s : State) : Option Err :=
  if s.pstate = PState.hardDown.code then some .poweredDown else none

/-- PS_ENABLE (R98): RESULT is PS_REQ before the write. -/
def execPsEnable (en : Bool) (s : State) : Answer :=
  .next (match psEnableError s with
    | some e => s.raise .power e
    | none =>
      (((s.setPsReq en).setResult ((BitVec.ofBool s.psReq).setWidth 8)).setAction .none).complete)

/-- The first check of PS_PRE that fails, if any (R99, R116). -/
def psPreError (init : Bool) (s : State) : Option Err :=
  if s.xact = true then some .sequenceXactOpen
  else if s.pstate = PState.hardDown.code then some .poweredDown
  else if s.ready = false ∧ init = false ∧ s.params.notReady = .reject then some .notReady
  else none

/-- The wake decision of PS_PRE (R99). -/
def wakeIfAsleep (s : State) : State :=
  if s.pstate = PState.softSave.code then (s.setAction .wake).setPstate .active
  else s.setAction .none

/-- PS_PRE (R99). -/
def execPsPre (resp init : Bool) (s : State) : Answer :=
  .next (match psPreError init s with
    | some e => s.raise .power e
    | none => ((((wakeIfAsleep s).setXact true).setXresp resp).setXinit init).complete)

/-- The check of PS_POST (R100, R116). -/
def psPostError (s : State) : Option Err :=
  if s.xact = false then some .sequenceNoXact else none

/-- READY takes the outcome of an initialization exchange (R100). -/
def recordInit (ok : Bool) (s : State) : State :=
  if s.xinit = true then s.setReady ok else s

/-- The sleep decision of PS_POST (R96, R100). -/
def sleepIfEligible (ok stest : Bool) (s : State) : State :=
  if eligible ok s.xresp stest = true ∧ s.psReq = true then
    (s.setAction .sleep).setPstate .softSave
  else s.setAction .none

/-- PS_POST (R100). -/
def execPsPost (ok stest : Bool) (s : State) : Answer :=
  .next (match psPostError s with
    | some e => s.raise .power e
    | none => (sleepIfEligible ok stest (recordInit ok (s.setXact false))).complete)

end Sys2Proof.Machine
end

