-- ==== Sys2Proof/Machine/Dispatch.lean ====
section
/-! DEFINITION. One arm per operation. -/

namespace Sys2Proof.Machine

def exec (i : Instr) (s : State) : Host.Outcome State Fault Refusal :=
  match i with
  | .csum => Sys2Proof.Machine.execCsum s
  | .mkcmd => Sys2Proof.Machine.execMkcmd s
  | .mkdx => Sys2Proof.Machine.execMkdx s
  | .enc => Sys2Proof.Machine.execEnc s
  | .ackchk => Sys2Proof.Machine.execAckchk s
  | .decD2h => Sys2Proof.Machine.execDecD2h s
  | .decH2d => Sys2Proof.Machine.execDecH2d s
  | .decAck => Sys2Proof.Machine.execDecAck s
  | .psHard down => Sys2Proof.Machine.execPsHard down s
  | .psEnable en => Sys2Proof.Machine.execPsEnable en s
  | .psPre resp init => Sys2Proof.Machine.execPsPre resp init s
  | .psPost ok stest => Sys2Proof.Machine.execPsPost ok stest s

end Sys2Proof.Machine
end

