-- ==== Sys2Proof/Machine/HostPort.lean ====
section
/-! DEFINITION. The host's steps: register and buffer accesses (20_memory.md R44, R45, R47), the issue of
a request word (30_encoding.md R53) and construction (70_reset_and_hazards.md R128). -/

namespace Sys2Proof.Machine

/-- The value of a readable register, whole (R13, R43, R44). -/
def State.register (s : State) : Nat → Option HostData
  | 1 => some (.byte s.status)
  | 2 => some (.byte s.info)
  | 3 => some (.byte s.result)
  | 4 => some (.byte s.action)
  | 5 => some (.word s.ilen)
  | 6 => some (.word s.olen)
  | 7 => some (.byte s.flen)
  | 8 => some (.byte s.fdir)
  | 9 => some (.byte s.fsr)
  | 10 => some (.byte s.psr)
  | 11 => some (.byte s.cfg)
  | _ => none

/-- Issue the request word `w` (30_encoding.md R53): decode it first (60_exceptions.md R114); a legal
word runs its operation, an illegal one completes with IllegalOperation (R113). -/
def issue (w : Word) (s : State) : Answer :=
  match decode w with
  | .ok i => exec i s
  | .error e => .next (s.raise .request (illegalErr e))

/-- `RegRead(n)` (R44); a read of REQ or of a number above 11 is refused (R45). -/
def regRead (n : Nat) (s : State) : Answer :=
  if n = 0 then .fault .reqRead
  else
    match s.register n with
    | some v => .next { s with readOut := some v }
    | none => .fault (.noSuchRegister n)

/-- `RegWrite(n, v)` (R44): REQ issues an operation, ILEN takes all 16 bits (R20); any other register is
read-only and a number above 11 is no register (R45). -/
def regWrite (n : Nat) (v : Word) (s : State) : Answer :=
  if n = 0 then issue v s
  else if n = 5 then .next { s with ilen := v }
  else if n ≤ 11 then .fault (.readOnlyRegister n)
  else .fault (.noSuchRegister n)

/-- `BufRead(S, i)` by the host (R44 to R46). -/
def hostBufRead (S : Space) (i : Nat) (s : State) : Answer :=
  match s.bufRead S i with
  | .ok v => .next { s with readOut := some (.byte v) }
  | .error f => .fault f

/-- `BufWrite(S, i, v)` by the host (R44): only IBUF, only in range (R45). -/
def hostBufWrite (S : Space) (i : Nat) (v : Byte) (s : State) : Answer :=
  if S ≠ .ibuf then .fault (.readOnlyBuffer S)
  else if i < S.size then .next (s.withSpace S ((s.space S).write i v))
  else .fault (.indexOutOfRange S i)

/-- Construction, the one reset (70_reset_and_hazards.md R128, R131): every register and buffer takes its
reset value; the parameters and the host's remaining steps are kept (log 5). -/
def reconstruct (hasPline : Bool) (s : State) : State :=
  { State.construct hasPline s.params with pending := s.pending }

/-- One host step on the state without it. -/
def runHostStep (h : HostStep) (s : State) : Answer :=
  match h with
  | .regRead n => regRead n s
  | .regWrite n v => regWrite n v s
  | .bufRead S i => hostBufRead S i s
  | .bufWrite S i v => hostBufWrite S i v s
  | .construct hasPline => .next (reconstruct hasPline s)

end Sys2Proof.Machine
end

