-- ==== Sys2Proof/Machine/Step.lean ====
section
/-! DEFINITION. One step of the machine: the host's oldest pending step (00_scope.md R10; 20_memory.md
R49), or waiting (70_reset_and_hazards.md R132). -/

namespace Sys2Proof.Machine

/-- One step. With no host step pending the block waits and nothing changes (log 1). -/
def step (s : State) : Host.Outcome State Fault Refusal :=
  match s.pending with
  | [] => .next s
  | h :: rest => runHostStep h { s with pending := rest }

/-- `s` with the host about to write the request word `w` to REQ, so that the next step issues it
(30_encoding.md R53, log 11). -/
def State.withFetchWord (s : State) (nbits w : Nat) : State :=
  { s with pending := .regWrite 0 (BitVec.ofNat 16 (w % 2 ^ nbits)) :: s.pending }

end Sys2Proof.Machine
end

