-- ==== Sys2Proof/Machine/Assembly.lean ====
section
/-! DEFINITION. The spec's assembly text of operations (30_encoding.md R75) and host accesses (R76), and
the expansion of its pseudo-operations (R77). -/

namespace Sys2Proof.Machine

/-- The assembly text of an operation (R75). -/
def asmOf : Instr → String
  | .csum => "CSUM"
  | .mkcmd => "MKCMD"
  | .mkdx => "MKDX"
  | .enc => "ENC"
  | .ackchk => "ACKCHK"
  | .decD2h => "DEC.D2H"
  | .decH2d => "DEC.H2D"
  | .decAck => "DEC.ACK"
  | .psHard down => if down then "PS_HARD DOWN" else "PS_HARD UP"
  | .psEnable en => if en then "PS_ENABLE ON" else "PS_ENABLE OFF"
  | .psPre resp init =>
    match resp, init with
    | false, false => "PS_PRE"
    | true, false => "PS_PRE RESP"
    | false, true => "PS_PRE INIT"
    | true, true => "PS_PRE RESP,INIT"
  | .psPost ok stest =>
    match ok, stest with
    | false, false => "PS_POST"
    | true, false => "PS_POST OK"
    | false, true => "PS_POST STEST"
    | true, true => "PS_POST OK,STEST"

/-- The host step that issues an operation (30_encoding.md R53). -/
def issueStep (i : Instr) : HostStep := .regWrite 0 (encode i)

/-- `WRB i, v` (R76). -/
def wrb (i : Nat) (v : Byte) : HostStep := .bufWrite .ibuf i v

/-- `WRLEN n` (R76). -/
def wrlen (n : Word) : HostStep := .regWrite 5 n

/-- `WRB` of each byte from index `i` on. -/
def wrbs : Nat → Bytes → List HostStep
  | _, [] => []
  | i, v :: b => wrb i v :: wrbs (i + 1) b

/-- `LOAD b0, ..., bk-1` (R77). -/
def load (b : Bytes) : List HostStep := wrbs 0 b ++ [wrlen (BitVec.ofNat 16 b.length)]

/-- `FRAME c, a0, ..., am-1` (R77). -/
def frame (b : Bytes) : List HostStep := load b ++ [issueStep .mkcmd, issueStep .enc]

/-- `DXFRAME t, d0, ..., dm-1` (R77). -/
def dxframe (b : Bytes) : List HostStep := load b ++ [issueStep .mkdx, issueStep .enc]

/-- `RDB OBUF, i` and `WRB i, v` for each byte `v` that the read returns, from index `i` on. -/
def copyBytes : Nat → Bytes → List HostStep
  | _, [] => []
  | i, v :: b => .bufRead .obuf i :: wrb i v :: copyBytes (i + 1) b

/-- `COPYOUT` (R77), `b` being the bytes its reads of `OBUF[0..OLEN-1]` return. -/
def copyOut (b : Bytes) : List HostStep := copyBytes 0 b ++ [wrlen (BitVec.ofNat 16 b.length)]

end Sys2Proof.Machine
end

