-- ==== Sys2Proof/Machine/HostReport.lean ====
section
/-! DEFINITION. How a host names the codec's outcomes in the source's error taxonomy (40_frame_codec.md R93;
60_exceptions.md R111). The block acts on none of it: it reports the same STATUS in both stages. -/

namespace Sys2Proof.Machine

/-- What R111 makes of a completion code alone: a `FrameError` code is a `FrameError` in the response stage
and a transmission failure in the ACK stage; R111 names no other error. -/
def StatusCode.report (st : Stage) (c : StatusCode) : HostReport :=
  match c.cls, st with
  | .success, _ => .accepted
  | .frameError, .responseStage => .frameError
  | .frameError, .ackStage => .transmissionFailure
  | .power, _ => .other
  | .operand, _ => .other
  | .request, _ => .other
  | .sequence, _ => .other
  | .engine, _ => .other

/-- The completed operation reported success. -/
def State.succeeded (t : State) : Bool := decide (t.status = StatusCode.ok.code)

/-- A DEC outcome in the response stage (R93, first item): every DEC failure, whatever its code, is a
`FrameError` (log 14). -/
def responseReport (t : State) : HostReport :=
  if t.succeeded = true then .accepted else .frameError

/-- An outcome in the ACK stage (R93, second item; 90_conflicts.md C5): "any result other than an accepted
ACK is a transmission failure". -/
def ackReport (acked : Bool) : HostReport :=
  if acked = true then .accepted else .transmissionFailure

/-- The host's report of operation `i` in stage `st` (R93), `t` being the state `i` completed in. ACKCHK
accepts an ACK by its RESULT, which is stale unless it succeeded (70_reset_and_hazards.md R139); a data frame
accepted in the ACK stage is no accepted ACK. Of the other operations R93 says nothing. -/
def hostReport (st : Stage) (i : Instr) (t : State) : HostReport :=
  match i, st with
  | .decAck, .ackStage => ackReport t.succeeded
  | .ackchk, .ackStage => ackReport (t.succeeded && decide (t.result = resultAck))
  | .decD2h, .ackStage => ackReport false
  | .decH2d, .ackStage => ackReport false
  | .decD2h, .responseStage => responseReport t
  | .decH2d, .responseStage => responseReport t
  | .decAck, .responseStage => responseReport t
  | .ackchk, .responseStage => .other
  | .csum, _ => .other
  | .mkcmd, _ => .other
  | .mkdx, _ => .other
  | .enc, _ => .other
  | .psHard _, _ => .other
  | .psEnable _, _ => .other
  | .psPre _ _, _ => .other
  | .psPost _ _, _ => .other

/-- The Exchange Engine retries a transmission failure; a `FrameError` is terminal (R93). -/
def HostReport.retried : HostReport → Bool
  | .accepted => false
  | .frameError => false
  | .transmissionFailure => true
  | .other => false

end Sys2Proof.Machine
end

