-- ==== Sys2Proof/WellFormed.lean ====
section
/-! DEFINITION. Which terms the spec admits: operations, host steps (20_memory.md R44, R45) and
construction parameters (00_scope.md R5). -/

namespace Sys2Proof

/-- An operation is well-formed when each operand fits its field (30_encoding.md R55). Every operand is
one flag bit, held as a Bool, so every term of `Instr` is. -/
def Instr.wf : Instr → Bool
  | .csum => true
  | .mkcmd => true
  | .mkdx => true
  | .enc => true
  | .ackchk => true
  | .decD2h => true
  | .decH2d => true
  | .decAck => true
  | .psHard _ => true
  | .psEnable _ => true
  | .psPre _ _ => true
  | .psPost _ _ => true

/-- The parameters R5 allows: `P_MAX_PAYLOAD` is 1 to 254. -/
def Params.wf (p : Params) : Bool := decide (1 ≤ p.maxPayload.val)

namespace Machine

/-- The host accesses R44 allows; every other one is refused by R45. -/
def HostStep.wf : HostStep → Bool
  | .regRead n => decide (1 ≤ n) && decide (n ≤ 11)
  | .regWrite n _ => decide (n = 0) || decide (n = 5)
  | .bufRead S i => decide (i < S.size)
  | .bufWrite S i _ => decide (S = .ibuf) && decide (i < S.size)
  | .construct _ => true

end Machine

end Sys2Proof
end

