-- ==== Sys2Proof/Safety.lean ====
section
/-! DEFINITION. The terms claims are stated in: what a buffer holds, the spec's byte arithmetic and wire
frame written with natural numbers, the power registers field by field, and the invariants of a run. -/

namespace Sys2Proof

/-- The codec operations. -/
def Instr.isCodec : Instr → Bool
  | .csum => true
  | .mkcmd => true
  | .mkdx => true
  | .enc => true
  | .ackchk => true
  | .decD2h => true
  | .decH2d => true
  | .decAck => true
  | .psHard _ => false
  | .psEnable _ => false
  | .psPre _ _ => false
  | .psPost _ _ => false

/-- The codec operations that take IBUF operands (40_frame_codec.md R79). -/
def Instr.readsIbuf : Instr → Bool
  | .csum => true
  | .mkcmd => true
  | .mkdx => true
  | .enc => false
  | .ackchk => true
  | .decD2h => true
  | .decH2d => true
  | .decAck => true
  | .psHard _ => false
  | .psEnable _ => false
  | .psPre _ _ => false
  | .psPost _ _ => false

end Sys2Proof

namespace Sys2Proof.Machine

/-- A space holds the sequence `b` from index 0 on, read one byte at a time. -/
abbrev Holds (m : Memory) (b : Bytes) : Prop := ∀ k, k < b.length → Memory.read m k = b[k]?

/-- `m'` is `m` with exactly the bytes `b` stored from index 0 on: every other index reads as before. -/
abbrev StoredFromZero (m m' : Memory) (b : Bytes) : Prop :=
  ∀ k, Memory.read m' k = if k < b.length then b[k]? else Memory.read m k

/-- The IBUF operand of the next codec operation is `b` (20_memory.md R37; 40_frame_codec.md R79). -/
abbrev OperandIs (s : State) (b : Bytes) : Prop :=
  s.ilen.toNat = b.length ∧ b.length ≤ 262 ∧ Holds s.ibuf b

/-- A frame with payload `p` is held (20_memory.md R38; 10_state.md R24). -/
abbrev HeldFrameIs (s : State) (p : Bytes) : Prop :=
  s.fvalid = true ∧ s.flen.toNat = p.length ∧ p.length ≤ 254 ∧ Holds s.fbuf p

/-- `sum8` of 00_scope.md R8 as a natural number below 256. -/
def sumMod256 (b : Bytes) : Nat := (b.map BitVec.toNat).sum % 256

/-- `neg8` of R8 on a natural number below 256, as a byte. -/
def negMod256 (n : Nat) : Byte := BitVec.ofNat 8 ((256 - n) % 256)

/-- The data frame of 30_encoding.md R60, index by index: start marker, LEN, LCS, direction, payload, DCS,
postamble. -/
def wireFrame (dir : Byte) (p : Bytes) : Bytes :=
  [0x00, 0x00, 0xFF, BitVec.ofNat 8 (p.length + 1), negMod256 ((p.length + 1) % 256), dir] ++ p
    ++ [negMod256 (sumMod256 (dir :: p)), 0x00]

/-- PSR with the given fields, bit 7 first (10_state.md R25). -/
def psrByte (pline xinit xresp xact ready psReq : Bool) (pstate : BitVec 2) : Byte :=
  BitVec.ofBool pline ++ BitVec.ofBool xinit ++ BitVec.ofBool xresp ++ BitVec.ofBool xact
    ++ BitVec.ofBool ready ++ BitVec.ofBool psReq ++ pstate

/-- The source's power state (10_state.md R33). -/
inductive SourcePower where
  | hardDown
  | active (softSaveRequested softSaveCurrentlyEntered : Bool)
deriving DecidableEq, Repr

/-- How the source's power state reads from PSR (R33); PSTATE = 3 is never held (R34). -/
def State.sourcePower (s : State) : SourcePower :=
  if s.pstate = PState.hardDown.code then .hardDown
  else .active s.psReq (decide (s.pstate = PState.softSave.code))

/-- Every error an operation can raise (60_exceptions.md R110, R115, R116). -/
def raisedBy : Instr → List Err
  | .csum => [.operandIlenRange]
  | .mkcmd => [.operandIlenRange, .operandEmpty, .operandTooLarge]
  | .mkdx => [.operandIlenRange, .operandEmpty, .operandTooLarge]
  | .enc => [.sequenceNoFrame]
  | .ackchk => [.operandIlenRange]
  | .decD2h => [.operandIlenRange, .malformedShort, .malformedStart, .checksumLcs, .malformedZeroLen,
      .malformedTruncated, .checksumDcs, .malformedPostamble, .unexpectedSawAck, .unexpectedSawNack,
      .unexpectedDir]
  | .decH2d => [.operandIlenRange, .malformedShort, .malformedStart, .checksumLcs, .malformedZeroLen,
      .malformedTruncated, .checksumDcs, .malformedPostamble, .unexpectedSawAck, .unexpectedSawNack,
      .unexpectedDir]
  | .decAck => [.operandIlenRange, .malformedShort, .malformedStart, .checksumLcs, .malformedZeroLen,
      .malformedTruncated, .checksumDcs, .malformedPostamble, .unexpectedSawNack, .unexpectedSawData]
  | .psHard _ => [.noHardPowerControl, .sequenceXactOpen]
  | .psEnable _ => [.poweredDown]
  | .psPre _ _ => [.sequenceXactOpen, .poweredDown, .notReady]
  | .psPost _ _ => [.sequenceNoXact]

/-- With ILEN above the buffer, `i` completes with OperandError(ILEN_RANGE) and nothing else
(40_frame_codec.md R79). -/
def FailsOnIlenRange (i : Instr) : Prop :=
  ∀ s : State, 262 < s.ilen.toNat → exec i s = .next { s with status := 0x07, info := 0x03 }

/-- With an unwritten byte among its IBUF operands, `i` faults on such a byte (20_memory.md R46). -/
def FaultsOnUnwrittenOperand (i : Instr) : Prop :=
  ∀ s : State, s.ilen.toNat ≤ 262 → (∃ n, n < s.ilen.toNat ∧ Memory.read s.ibuf n = none) →
    ∃ n, n < s.ilen.toNat ∧ Memory.read s.ibuf n = none ∧ exec i s = .fault (.unwrittenRead .ibuf n)

/-- `i` builds a frame with payload `wrap b` from the operand `b`: the frame registers and FBUF take it,
and nothing else but STATUS and INFO changes (40_frame_codec.md R83, R84). -/
def BuildsFrame (i : Instr) (wrap : Bytes → Bytes) : Prop :=
  ∀ (s : State) (b : Bytes), OperandIs s b → 1 ≤ b.length →
    (wrap b).length ≤ s.params.maxPayload.val →
    ∃ m, exec i s = .next { s with
        fbuf := m, flen := BitVec.ofNat 8 (wrap b).length, fdir := 0xD4, fsr := s.fsr ||| 1,
        status := 0x00, info := 0x00 } ∧
      StoredFromZero s.fbuf m (wrap b)

/-- `i` decodes the data frame `(dir, p)` of the operand into the frame registers and FBUF, and nothing
else but RESULT, STATUS and INFO changes (40_frame_codec.md R87). -/
def DecodesFrame (i : Instr) (s : State) (dir : Byte) (p : Bytes) : Prop :=
  ∃ m, exec i s = .next { s with
      fbuf := m, flen := BitVec.ofNat 8 p.length, fdir := dir, fsr := s.fsr ||| 1,
      result := 0x03, status := 0x00, info := 0x00 } ∧
    StoredFromZero s.fbuf m p

/-- An answer with its next state, if it has one, changed by `f`. -/
def mapNext (f : State → State) : Answer → Answer
  | .next s => .next (f s)
  | .fault r => .fault r
  | .refused r => .refused r

/-- `n` steps one after another (20_memory.md R49), stopping at the first one that answers no next state. -/
def runSteps : Nat → State → Answer
  | 0, s => .next s
  | n + 1, s =>
    match step s with
    | .next t => runSteps n t
    | .fault f => .fault f
    | .refused r => .refused r

/-- The invariants of 10_state.md R34, in its order. -/
structure PowerInv (s : State) : Prop where
  /-- 1. PSTATE is never 3 -/
  pstateLegal : s.pstate ≠ 3
  /-- 2. an open exchange finds the device active -/
  openActive : s.xact = true → s.pstate = PState.active.code
  /-- 3. nothing soft survives in HARD_DOWN -/
  downCleared : s.pstate = PState.hardDown.code →
    s.psReq = false ∧ s.ready = false ∧ s.xact = false ∧ s.pline = false
  /-- 4. outside HARD_DOWN the line is at the powered level -/
  upPowered : s.pstate ≠ PState.hardDown.code → s.pline = true
  /-- 5. without a line the device is never hard powered down -/
  noLineNotDown : s.hasPline = false → s.pstate ≠ PState.hardDown.code

/-- The code registers and reserved bits hold only what the spec lists (30_encoding.md R70, R71, R73;
10_state.md R24, R32). -/
structure CodeInv (s : State) : Prop where
  /-- STATUS and INFO are success, or one error's pair -/
  completion : (s.status = 0x00 ∧ s.info = 0x00) ∨ ∃ e : Err, s.status = e.status ∧ s.info = e.info
  /-- ACTION is a listed action -/
  action : ∃ a : Action, s.action = a.code
  /-- FSR[7:1] read as 0 -/
  fsrReserved : s.fsr &&& 0xFE = 0
  /-- CFG[7:1] read as 0 -/
  cfgReserved : s.cfg &&& 0xFE = 0

/-- The buffers are canonical, and what the length registers claim to be written is written
(20_memory.md R36 to R39; 10_state.md R21, R22, R24). -/
structure BufferInv (s : State) : Prop where
  ibufWf : Memory.wf bufBytes s.ibuf = true
  fbufWf : Memory.wf fbufBytes s.fbuf = true
  obufWf : Memory.wf bufBytes s.obuf = true
  /-- FLEN is 0 to 254 -/
  flenBound : s.flen.toNat ≤ fbufBytes
  /-- the bytes of a held frame have been written -/
  frameWritten : s.fvalid = true → ∀ k, k < s.flen.toNat → (Memory.read s.fbuf k).isSome = true
  /-- a held frame has one of the two directions -/
  frameDir : s.fvalid = true → s.fdir = dirH2d ∨ s.fdir = dirD2h
  /-- before the first frame FLEN and FDIR are 0 -/
  noFrame : s.fvalid = false → s.flen = 0 ∧ s.fdir = 0
  /-- OLEN is 0, or the length of an encoded frame -/
  olenRange : s.olen = 0 ∨ 8 ≤ s.olen.toNat ∧ s.olen.toNat ≤ bufBytes
  /-- the bytes OLEN counts have been written -/
  outputWritten : ∀ k, k < s.olen.toNat → (Memory.read s.obuf k).isSome = true
  /-- the parameters are ones R5 allows -/
  paramsWf : s.params.wf = true

/-- The invariant of every run: each step keeps it, and it holds after construction. -/
structure Inv (s : State) : Prop where
  power : PowerInv s
  code : CodeInv s
  buffer : BufferInv s

/-- A step is safe when it answers a next state: no refused access and no unwritten byte read
(60_exceptions.md R109). -/
def SafeStep (s : State) : Prop := ∃ t, step s = .next t

end Sys2Proof.Machine
end

