-- ==== Sys2Proof/Certificates/Slice0/Obligations.lean ====
section
/-! DEFINITION. The statements for the provers. The terms they use are in Sys2Proof/Safety.lean. -/

open Sys2Proof Sys2Proof.Machine

/-! ## Request words -/

/-- The words of 30_encoding.md R59 and R75, written out, decode to their operations; a few illegal words
of 95_test_vectors.md do not. -/
def Obligations.RequestWordsDecodeToTheirOperations : Prop :=
  decode 0x0001 = .ok .csum ∧ decode 0x0002 = .ok .mkcmd ∧ decode 0x0003 = .ok .mkdx ∧
  decode 0x0004 = .ok .enc ∧ decode 0x0005 = .ok .ackchk ∧
  decode 0x0006 = .ok .decD2h ∧ decode 0x0106 = .ok .decH2d ∧ decode 0x0206 = .ok .decAck ∧
  decode 0x0010 = .ok (.psHard false) ∧ decode 0x0110 = .ok (.psHard true) ∧
  decode 0x0011 = .ok (.psEnable false) ∧ decode 0x0111 = .ok (.psEnable true) ∧
  decode 0x0012 = .ok (.psPre false false) ∧ decode 0x0112 = .ok (.psPre true false) ∧
  decode 0x0212 = .ok (.psPre false true) ∧ decode 0x0312 = .ok (.psPre true true) ∧
  decode 0x0013 = .ok (.psPost false false) ∧ decode 0x0113 = .ok (.psPost true false) ∧
  decode 0x0213 = .ok (.psPost false true) ∧ decode 0x0313 = .ok (.psPost true true) ∧
  decode 0x0000 = .error .badOpcode ∧ decode 0x0114 = .error .badOpcode ∧
  decode 0x0706 = .error .reservedFlags ∧ decode 0x0306 = .error .badExpect

/-- R59: the twenty words are legal, and every other word is illegal. -/
def Obligations.ExactlyTwentyRequestWordsAreLegal : Prop :=
  ∀ w : Word, (∃ i, decode w = .ok i) ↔ w ∈ ([
    0x0001, 0x0002, 0x0003, 0x0004, 0x0005, 0x0006, 0x0106, 0x0206, 0x0010, 0x0110,
    0x0011, 0x0111, 0x0012, 0x0112, 0x0212, 0x0312, 0x0013, 0x0113, 0x0213, 0x0313] : List Word)

/-- R58, R75: decoding an encoded operation gives it back, for every operation and every operand, and a
word decodes to an operation only if it is that operation's word. -/
def Obligations.DecodeAndEncodeAgree : Prop :=
  (∀ i : Instr, decode (encode i) = .ok i) ∧ ∀ (w : Word) (i : Instr), decode w = .ok i → encode i = w

/-- R56, R57, R113: the host writes an illegal word to REQ, and the block reports its cause in STATUS and
INFO; no register, buffer or field changes besides. `w.toNat % 256` is OPC and `w.toNat / 256` is FL. -/
def Obligations.IllegalWordsReportTheirCauseAndNothingElse : Prop :=
  ∀ (s : State) (w : Word) (rest : List HostStep), s.pending = .regWrite 0 w :: rest →
    ((w.toNat % 256 = 0x00 ∨ (0x07 ≤ w.toNat % 256 ∧ w.toNat % 256 ≤ 0x0F) ∨ 0x14 ≤ w.toNat % 256) →
      step s = .next { s with pending := rest, status := 0x08, info := 0x01 }) ∧
    (((0x01 ≤ w.toNat % 256 ∧ w.toNat % 256 ≤ 0x05 ∧ w.toNat / 256 ≠ 0) ∨
      (w.toNat % 256 = 0x06 ∧ w.toNat / 1024 ≠ 0) ∨
      ((w.toNat % 256 = 0x10 ∨ w.toNat % 256 = 0x11) ∧ w.toNat / 512 ≠ 0) ∨
      ((w.toNat % 256 = 0x12 ∨ w.toNat % 256 = 0x13) ∧ w.toNat / 1024 ≠ 0)) →
      step s = .next { s with pending := rest, status := 0x08, info := 0x02 }) ∧
    (w.toNat % 256 = 0x06 ∧ w.toNat / 256 = 3 →
      step s = .next { s with pending := rest, status := 0x08, info := 0x03 })

/-! ## Steps and host accesses -/

/-- R53, R48: when the host's next step writes a legal word to REQ, the step is that word's operation run on
the state without the step. The second clause is the fetch aid of the model's own (log 11). -/
def Obligations.AStepRunsTheDecodedOperation : Prop :=
  (∀ (s : State) (w : Word) (i : Instr) (rest : List HostStep),
    s.pending = .regWrite 0 w :: rest → decode w = .ok i → step s = exec i { s with pending := rest }) ∧
  ∀ (s : State) (i : Instr), step (s.withFetchWord 16 (encode i).toNat) = exec i s

/-- 70_reset_and_hazards.md R132; the model's choice of log 1: with no host step pending, a step changes
nothing. -/
def Obligations.AnIdleHostLeavesTheBlockWaiting : Prop :=
  ∀ s : State, s.pending = [] → step s = .next s

/-- 20_memory.md R44: each register read returns that register whole, a write of ILEN stores all 16 bits, a
buffer read returns the byte last written, and a buffer write changes that byte of IBUF alone. -/
def Obligations.HostAccessesReadAndWriteWhatTheyName : Prop :=
  (∀ (s : State) (n : Nat) (v : HostData) (rest : List HostStep), s.pending = .regRead n :: rest →
    (n, v) ∈ [(1, HostData.byte s.status), (2, .byte s.info), (3, .byte s.result), (4, .byte s.action),
      (5, .word s.ilen), (6, .word s.olen), (7, .byte s.flen), (8, .byte s.fdir), (9, .byte s.fsr),
      (10, .byte s.psr), (11, .byte s.cfg)] →
    step s = .next { s with pending := rest, readOut := some v }) ∧
  (∀ (s : State) (v : Word) (rest : List HostStep), s.pending = .regWrite 5 v :: rest →
    step s = .next { s with pending := rest, ilen := v }) ∧
  (∀ (s : State) (S : Space) (i : Nat) (v : Byte) (rest : List HostStep),
    s.pending = .bufRead S i :: rest → i < S.size → Memory.read (s.space S) i = some v →
    step s = .next { s with pending := rest, readOut := some (.byte v) }) ∧
  (∀ (s : State) (i : Nat) (v : Byte) (rest : List HostStep),
    s.pending = .bufWrite .ibuf i v :: rest → i < 262 →
    ∃ m, step s = .next { s with pending := rest, ibuf := m } ∧
      ∀ k, Memory.read m k = if k = i then some v else Memory.read s.ibuf k)

/-- 20_memory.md R45: each of the five refused accesses faults. -/
def Obligations.RefusedHostAccessesFault : Prop :=
  ∀ (s : State) (rest : List HostStep),
    (s.pending = .regRead 0 :: rest → ∃ f, step s = .fault f) ∧
    (∀ n, 11 < n → s.pending = .regRead n :: rest → ∃ f, step s = .fault f) ∧
    (∀ n v, 11 < n → s.pending = .regWrite n v :: rest → ∃ f, step s = .fault f) ∧
    (∀ n v, n ≤ 11 → n ≠ 0 → n ≠ 5 → s.pending = .regWrite n v :: rest → ∃ f, step s = .fault f) ∧
    (∀ S i, S.size ≤ i → s.pending = .bufRead S i :: rest → ∃ f, step s = .fault f) ∧
    (∀ S i v, S.size ≤ i → s.pending = .bufWrite S i v :: rest → ∃ f, step s = .fault f) ∧
    (∀ i v, s.pending = .bufWrite .fbuf i v :: rest → ∃ f, step s = .fault f) ∧
    (∀ i v, s.pending = .bufWrite .obuf i v :: rest → ∃ f, step s = .fault f)

/-- 20_memory.md R46: a byte that nothing has written faults when the host reads it, when an operation with
IBUF operands reads it, and when ENC reads it in FBUF. -/
def Obligations.UnwrittenBytesFault : Prop :=
  (∀ (s : State) (S : Space) (i : Nat) (rest : List HostStep), s.pending = .bufRead S i :: rest →
    i < S.size → Memory.read (s.space S) i = none → step s = .fault (.unwrittenRead S i)) ∧
  (∀ i : Instr, i.readsIbuf = true → FaultsOnUnwrittenOperand i) ∧
  (∀ s : State, s.fvalid = true → s.flen.toNat ≤ 254 →
    (∃ n, n < s.flen.toNat ∧ Memory.read s.fbuf n = none) →
    ∃ n, n < s.flen.toNat ∧ Memory.read s.fbuf n = none ∧ exec .enc s = .fault (.unwrittenRead .fbuf n))

/-- 20_memory.md R47: reads change nothing and repeat with the same answer, a write of ILEN and a buffer
write repeat without effect, and PS_PRE and PS_POST are refused when repeated at once. -/
def Obligations.ReadsHaveNoSideEffectAndWritesRepeat : Prop :=
  (∀ (s t : State) (h : HostStep) (rest : List HostStep), s.pending = h :: rest →
    ((∃ n, h = .regRead n) ∨ ∃ S i, h = .bufRead S i) → step s = .next t →
    t = { s with pending := rest, readOut := t.readOut } ∧
      step { t with pending := h :: rest } = .next t) ∧
  (∀ (s t : State) (h : HostStep) (rest : List HostStep), s.pending = h :: rest →
    ((∃ v, h = .regWrite 5 v) ∨ ∃ S i v, h = .bufWrite S i v) → step s = .next t →
    step { t with pending := h :: rest } = .next t) ∧
  (∀ (s t : State) (resp init resp' init' : Bool), exec (.psPre resp init) s = .next t →
    t.status = 0x00 →
    exec (.psPre resp' init') t = .next { t with status := 0x09, info := 0x02, action := 0x00 }) ∧
  (∀ (s t : State) (ok stest ok' stest' : Bool), exec (.psPost ok stest) s = .next t →
    t.status = 0x00 →
    exec (.psPost ok' stest') t = .next { t with status := 0x09, info := 0x03, action := 0x00 })

/-! ## Codec operations -/

/-- R82. -/
def Obligations.CsumFollowsItsRule : Prop :=
  decode 0x0001 = .ok .csum ∧ asmOf .csum = "CSUM" ∧
  (∀ (s : State) (b : Bytes), OperandIs s b →
    exec .csum s = .next { s with
      result := negMod256 (sumMod256 b), status := 0x00, info := 0x00 }) ∧
  FailsOnIlenRange .csum ∧ FaultsOnUnwrittenOperand .csum ∧
  negMod256 (sumMod256 []) = 0x00 ∧
  (∀ b : Bytes, sumMod256 b = 0 → negMod256 (sumMod256 b) = 0x00) ∧
  (∀ b c : Bytes, b.Perm c → negMod256 (sumMod256 b) = negMod256 (sumMod256 c)) ∧
  (∀ b : Bytes, sumMod256 (b ++ [negMod256 (sumMod256 b)]) = 0) ∧
  negMod256 (sumMod256 [0xD4, 0x02]) = 0x2A

/-- R83. -/
def Obligations.MkcmdFollowsItsRule : Prop :=
  decode 0x0002 = .ok .mkcmd ∧ asmOf .mkcmd = "MKCMD" ∧
  BuildsFrame .mkcmd (fun b => b) ∧
  FailsOnIlenRange .mkcmd ∧ FaultsOnUnwrittenOperand .mkcmd ∧
  (∀ s : State, s.ilen = 0 → exec .mkcmd s = .next { s with status := 0x07, info := 0x01 }) ∧
  (∀ (s : State) (b : Bytes), OperandIs s b → b ≠ [] → s.params.maxPayload.val < b.length →
    exec .mkcmd s = .next { s with status := 0x07, info := 0x02 })

/-- R84. -/
def Obligations.MkdxFollowsItsRule : Prop :=
  decode 0x0003 = .ok .mkdx ∧ asmOf .mkdx = "MKDX" ∧
  BuildsFrame .mkdx (fun b => 0x40 :: b) ∧
  FailsOnIlenRange .mkdx ∧ FaultsOnUnwrittenOperand .mkdx ∧
  (∀ s : State, s.ilen = 0 → exec .mkdx s = .next { s with status := 0x07, info := 0x01 }) ∧
  (∀ (s : State) (b : Bytes), OperandIs s b → b ≠ [] → s.params.maxPayload.val < b.length + 1 →
    exec .mkdx s = .next { s with status := 0x07, info := 0x02 }) ∧
  wireFrame 0xD4 [0x40, 0x01, 0x30, 0x04]
    = [0x00, 0x00, 0xFF, 0x05, 0xFB, 0xD4, 0x40, 0x01, 0x30, 0x04, 0xB7, 0x00]

/-- R85, with the wire frame of R60. The repeat clause and the rebuild clause are R85's own: a repeat
gives the same bytes, and DEC.D2H followed by ENC gives the device's frame without trailing bytes. -/
def Obligations.EncFollowsItsRule : Prop :=
  decode 0x0004 = .ok .enc ∧ asmOf .enc = "ENC" ∧
  (∀ (s : State) (p : Bytes), HeldFrameIs s p →
    ∃ m, exec .enc s = .next { s with
        obuf := m, olen := BitVec.ofNat 16 (p.length + 8), status := 0x00, info := 0x00 } ∧
      StoredFromZero s.obuf m (wireFrame s.fdir p)) ∧
  (∀ s : State, s.fvalid = false → exec .enc s = .next { s with status := 0x09, info := 0x01 }) ∧
  (∀ s t : State, exec .enc s = .next t → t.status = 0x00 →
    ∃ u, exec .enc t = .next u ∧ u.olen = t.olen ∧ ∀ k, Memory.read u.obuf k = Memory.read t.obuf k) ∧
  (∀ (s t : State) (p tail : Bytes), p.length ≤ 254 → OperandIs s (wireFrame 0xD5 p ++ tail) →
    exec .decD2h s = .next t →
    ∃ u, exec .enc t = .next u ∧ u.olen.toNat = p.length + 8 ∧ Holds u.obuf (wireFrame 0xD5 p)) ∧
  (∀ dir : Byte, wireFrame dir [] = [0x00, 0x00, 0xFF, 0x01, 0xFF, dir, negMod256 dir.toNat, 0x00]) ∧
  wireFrame 0xD4 [0x02] = [0x00, 0x00, 0xFF, 0x02, 0xFE, 0xD4, 0x02, 0x2A, 0x00]

/-- R86. A sentinel counts whatever follows it, and anything else gives NONE. -/
def Obligations.AckchkFollowsItsRule : Prop :=
  decode 0x0005 = .ok .ackchk ∧ asmOf .ackchk = "ACKCHK" ∧
  (∀ (s : State) (b : Bytes), OperandIs s b →
    ((∃ tail, b = [0x00, 0x00, 0xFF, 0x00, 0xFF, 0x00] ++ tail) →
      exec .ackchk s = .next { s with result := 0x01, status := 0x00, info := 0x00 }) ∧
    ((∃ tail, b = [0x00, 0x00, 0xFF, 0xFF, 0x00, 0x00] ++ tail) →
      exec .ackchk s = .next { s with result := 0x02, status := 0x00, info := 0x00 }) ∧
    ((∀ tail, b ≠ [0x00, 0x00, 0xFF, 0x00, 0xFF, 0x00] ++ tail) →
      (∀ tail, b ≠ [0x00, 0x00, 0xFF, 0xFF, 0x00, 0x00] ++ tail) →
      exec .ackchk s = .next { s with result := 0x00, status := 0x00, info := 0x00 })) ∧
  FailsOnIlenRange .ackchk ∧ FaultsOnUnwrittenOperand .ackchk

/-- R87, in terms of the outcome of `classify` (R81). Each failure of `classify` stands with its STATUS and
INFO of 30_encoding.md R70 and R71. -/
def Obligations.DecFollowsItsRule : Prop :=
  decode 0x0006 = .ok .decD2h ∧ decode 0x0106 = .ok .decH2d ∧ decode 0x0206 = .ok .decAck ∧
  decode 0x0306 = .error .badExpect ∧
  asmOf .decD2h = "DEC.D2H" ∧ asmOf .decH2d = "DEC.H2D" ∧ asmOf .decAck = "DEC.ACK" ∧
  (∀ i, i = .decD2h ∨ i = .decH2d ∨ i = .decAck → FailsOnIlenRange i ∧ FaultsOnUnwrittenOperand i) ∧
  (∀ (s : State) (b : Bytes), OperandIs s b →
    (∀ e, classify b = .fail e → ∃ st info : Byte,
      (e, st, info) ∈ ([(.malformedShort, 0x02, 0x01), (.malformedStart, 0x02, 0x02),
        (.malformedZeroLen, 0x02, 0x03), (.malformedTruncated, 0x02, 0x04), (.malformedPostamble, 0x02, 0x05),
        (.checksumLcs, 0x01, 0x01), (.checksumDcs, 0x01, 0x02)] : List (Err × Byte × Byte)) ∧
      ∀ i, i = .decD2h ∨ i = .decH2d ∨ i = .decAck →
        exec i s = .next { s with status := st, info := info }) ∧
    (classify b = .ack →
      exec .decAck s = .next { s with result := 0x01, status := 0x00, info := 0x00 } ∧
      exec .decD2h s = .next { s with status := 0x03, info := 0x01 } ∧
      exec .decH2d s = .next { s with status := 0x03, info := 0x01 }) ∧
    (classify b = .nack → ∀ i, i = .decD2h ∨ i = .decH2d ∨ i = .decAck →
      exec i s = .next { s with status := 0x03, info := 0x02 }) ∧
    (∀ dir p, classify b = .data dir p →
      exec .decAck s = .next { s with status := 0x03, info := 0x03 } ∧
      (dir = 0xD5 → DecodesFrame .decD2h s dir p) ∧
      (dir ≠ 0xD5 → exec .decD2h s = .next { s with status := 0x03, info := 0x04 }) ∧
      (dir = 0xD4 → DecodesFrame .decH2d s dir p) ∧
      (dir ≠ 0xD4 → exec .decH2d s = .next { s with status := 0x03, info := 0x04 }))) ∧
  (∀ (dir : Byte) (p tail : Bytes), p.length ≤ 254 →
    classify (wireFrame dir p ++ tail) = .data dir p) ∧
  classify [0x00, 0x00, 0xFF, 0x01, 0xFF, 0x7F, 0x81, 0x00] = .data 0x7F [] ∧
  classify [0x00, 0x00, 0xFF, 0x06, 0xFA, 0xD5, 0x03, 0x32, 0x01, 0x06, 0x07, 0xE8, 0x00]
    = .data 0xD5 [0x03, 0x32, 0x01, 0x06, 0x07]

/-- R81: the tests of `classify` in their order. `len` and `lcs` are bytes 3 and 4; `body` is the `len + 1`
bytes from the direction byte to DCS, and `post` the byte after them. -/
def Obligations.ClassifyTestsInOrder : Prop :=
  (∀ b : Bytes, b.length < 6 → classify b = .fail .malformedShort) ∧
  (∀ b : Bytes, 6 ≤ b.length → b.take 3 ≠ [0x00, 0x00, 0xFF] → classify b = .fail .malformedStart) ∧
  (∀ tail, classify ([0x00, 0x00, 0xFF, 0x00, 0xFF, 0x00] ++ tail) = .ack) ∧
  (∀ tail, classify ([0x00, 0x00, 0xFF, 0xFF, 0x00, 0x00] ++ tail) = .nack) ∧
  (∀ (len lcs : Byte) (r : Bytes), 1 ≤ r.length →
    (∀ tail, [0x00, 0x00, 0xFF, len, lcs] ++ r ≠ [0x00, 0x00, 0xFF, 0x00, 0xFF, 0x00] ++ tail) →
    (∀ tail, [0x00, 0x00, 0xFF, len, lcs] ++ r ≠ [0x00, 0x00, 0xFF, 0xFF, 0x00, 0x00] ++ tail) →
    (len.toNat + lcs.toNat) % 256 ≠ 0 →
    classify ([0x00, 0x00, 0xFF, len, lcs] ++ r) = .fail .checksumLcs) ∧
  (∀ (len lcs : Byte) (r : Bytes), 1 ≤ r.length → (len.toNat + lcs.toNat) % 256 = 0 →
    (len = 0 → classify ([0x00, 0x00, 0xFF, len, lcs] ++ r) = .fail .malformedZeroLen) ∧
    (len ≠ 0 → r.length + 5 < len.toNat + 7 →
      classify ([0x00, 0x00, 0xFF, len, lcs] ++ r) = .fail .malformedTruncated)) ∧
  (∀ (len lcs dir post : Byte) (p tail : Bytes) (dcs : Byte), len ≠ 0 →
    (len.toNat + lcs.toNat) % 256 = 0 → p.length + 1 = len.toNat →
    (sumMod256 ([dir] ++ p ++ [dcs]) ≠ 0 →
      classify ([0x00, 0x00, 0xFF, len, lcs] ++ ([dir] ++ p ++ [dcs]) ++ [post] ++ tail)
        = .fail .checksumDcs) ∧
    (sumMod256 ([dir] ++ p ++ [dcs]) = 0 → post ≠ 0 →
      classify ([0x00, 0x00, 0xFF, len, lcs] ++ ([dir] ++ p ++ [dcs]) ++ [post] ++ tail)
        = .fail .malformedPostamble) ∧
    (sumMod256 ([dir] ++ p ++ [dcs]) = 0 → post = 0 →
      classify ([0x00, 0x00, 0xFF, len, lcs] ++ ([dir] ++ p ++ [dcs]) ++ [post] ++ tail)
        = .data dir p))

/-- R60 to R69, R81: the decoder's pure part accepts exactly the data frames of R60 with a payload of 0 to
254 bytes, followed by anything, and recognises exactly the two sentinels, followed by anything. -/
def Obligations.DecoderAcceptsExactlyTheWireForms : Prop :=
  ∀ b : Bytes,
    (∀ dir p, classify b = .data dir p ↔ p.length ≤ 254 ∧ ∃ tail, b = wireFrame dir p ++ tail) ∧
    (classify b = .ack ↔ ∃ tail, b = [0x00, 0x00, 0xFF, 0x00, 0xFF, 0x00] ++ tail) ∧
    (classify b = .nack ↔ ∃ tail, b = [0x00, 0x00, 0xFF, 0xFF, 0x00, 0x00] ++ tail)

/-- R68: an accepted data frame begins with neither sentinel, because its LEN and LCS sum to 0 and the
sentinels' bytes 3 and 4 do not. -/
def Obligations.SentinelsAreNeverDataFrames : Prop :=
  ∀ (b : Bytes) (dir : Byte) (p : Bytes), classify b = .data dir p →
    (∃ len lcs r, b = [0x00, 0x00, 0xFF, len, lcs] ++ r ∧ (len.toNat + lcs.toNat) % 256 = 0) ∧
    (∀ tail, b ≠ [0x00, 0x00, 0xFF, 0x00, 0xFF, 0x00] ++ tail) ∧
    (∀ tail, b ≠ [0x00, 0x00, 0xFF, 0xFF, 0x00, 0x00] ++ tail)

/-- R69: an extended information frame fails its length checksum under every expectation, and the error
frame is a data frame of an unexpected direction, or an unexpected data frame for EXP = ACK. -/
def Obligations.OtherWireFormsAreRejected : Prop :=
  (∀ (s : State) (r : Bytes), r ≠ [] → OperandIs s ([0x00, 0x00, 0xFF, 0xFF, 0xFF] ++ r) →
    ∀ i, i = .decD2h ∨ i = .decH2d ∨ i = .decAck →
      exec i s = .next { s with status := 0x01, info := 0x01 }) ∧
  (∀ s : State, OperandIs s [0x00, 0x00, 0xFF, 0x01, 0xFF, 0x7F, 0x81, 0x00] →
    exec .decD2h s = .next { s with status := 0x03, info := 0x04 } ∧
    exec .decH2d s = .next { s with status := 0x03, info := 0x04 } ∧
    exec .decAck s = .next { s with status := 0x03, info := 0x03 })

/-- R90, of the frame the model encodes: LEN and LCS sum to 0, the bytes from the direction byte to DCS sum
to 0, and CSUM computes each of the two checksums. -/
def Obligations.EncodedFramesMeetTheChecksumIdentities : Prop :=
  ∀ (dir : Byte) (p : Bytes), p.length ≤ 254 →
    (∃ len lcs, (frameBytes dir p)[3]? = some len ∧ (frameBytes dir p)[4]? = some lcs ∧
      len.toNat = p.length + 1 ∧ (len.toNat + lcs.toNat) % 256 = 0) ∧
    sumMod256 (((frameBytes dir p).drop 5).take (p.length + 2)) = 0 ∧
    (∀ s t : State, OperandIs s ([dir] ++ p) → exec .csum s = .next t →
      (frameBytes dir p)[p.length + 6]? = some t.result) ∧
    (∀ s t : State, OperandIs s [BitVec.ofNat 8 (p.length + 1)] → exec .csum s = .next t →
      (frameBytes dir p)[4]? = some t.result)

/-- R88: build a frame, encode it, copy OBUF to IBUF, decode it, and the payload is back in FBUF; for every
state, every payload within the ceiling and whatever else the copying host does to the state. -/
def Obligations.BuildEncodeDecodeGivesThePayloadBack : Prop :=
  (∀ (s : State) (p : Bytes), OperandIs s p → 1 ≤ p.length → p.length ≤ s.params.maxPayload.val →
    ∃ s1 s2, exec .mkcmd s = .next s1 ∧ exec .enc s1 = .next s2 ∧
      ∀ s3 : State, s3.ilen = s2.olen →
        (∀ k, k < s2.olen.toNat → Memory.read s3.ibuf k = Memory.read s2.obuf k) →
        ∃ s4, exec .decH2d s3 = .next s4 ∧ s4.status = 0x00 ∧ s4.fdir = 0xD4 ∧
          s4.flen.toNat = p.length ∧ Holds s4.fbuf p) ∧
  (∀ (s : State) (p : Bytes), OperandIs s p → 1 ≤ p.length → p.length + 1 ≤ s.params.maxPayload.val →
    ∃ s1 s2, exec .mkdx s = .next s1 ∧ exec .enc s1 = .next s2 ∧
      ∀ s3 : State, s3.ilen = s2.olen →
        (∀ k, k < s2.olen.toNat → Memory.read s3.ibuf k = Memory.read s2.obuf k) →
        ∃ s4, exec .decH2d s3 = .next s4 ∧ s4.status = 0x00 ∧ s4.fdir = 0xD4 ∧
          s4.flen.toNat = p.length + 1 ∧ Holds s4.fbuf (0x40 :: p))

/-- R89: a frame with one byte changed is rejected, with the error of the changed byte's field, and the
decoder changes nothing but STATUS and INFO. -/
def Obligations.SingleByteCorruptionIsRejected : Prop :=
  ∀ (i : Instr) (dir : Byte), (i = .decH2d ∧ dir = 0xD4) ∨ (i = .decD2h ∧ dir = 0xD5) →
  ∀ (p : Bytes) (k : Nat) (v : Byte) (s : State), p.length ≤ 254 → k < p.length + 8 →
    (wireFrame dir p)[k]? ≠ some v → OperandIs s ((wireFrame dir p).set k v) →
    (k ≤ 2 → exec i s = .next { s with status := 0x02, info := 0x02 }) ∧
    (k = 3 ∨ k = 4 → exec i s = .next { s with status := 0x01, info := 0x01 }) ∧
    (5 ≤ k → k ≤ p.length + 6 → exec i s = .next { s with status := 0x01, info := 0x02 }) ∧
    (k = p.length + 7 → exec i s = .next { s with status := 0x02, info := 0x05 })

/-- R92: a codec operation changes no bit of the power state, and with any other power state, action and
configuration it does the same. -/
def Obligations.CodecIgnoresAndKeepsThePowerState : Prop :=
  ∀ (i : Instr) (s : State), i.isCodec = true →
    (∀ t, exec i s = .next t →
      t.psr = s.psr ∧ t.action = s.action ∧ t.cfg = s.cfg ∧ t.ibuf = s.ibuf ∧ t.ilen = s.ilen) ∧
    ∀ psr action cfg : Byte,
      exec i { s with psr := psr, action := action, cfg := cfg }
        = mapNext (fun t => { t with psr := psr, action := action, cfg := cfg }) (exec i s)

/-! ## Power operations -/

/-- R97. -/
def Obligations.PsHardFollowsItsRule : Prop :=
  decode 0x0110 = .ok (.psHard true) ∧ decode 0x0010 = .ok (.psHard false) ∧
  asmOf (.psHard true) = "PS_HARD DOWN" ∧ asmOf (.psHard false) = "PS_HARD UP" ∧
  (∀ (s : State) (down : Bool), s.hasPline = false →
    exec (.psHard down) s = .next { s with status := 0x04, info := 0x00, action := 0x00 }) ∧
  (∀ (s : State) (down : Bool), s.hasPline = true → s.xact = true →
    exec (.psHard down) s = .next { s with status := 0x09, info := 0x02, action := 0x00 }) ∧
  (∀ s : State, s.hasPline = true → s.xact = false →
    exec (.psHard true) s = .next { s with
      psr := psrByte false s.xinit s.xresp false false false 2, action := 0x00,
      status := 0x00, info := 0x00 }) ∧
  (∀ s : State, s.hasPline = true → s.xact = false → s.pstate = 2 →
    exec (.psHard false) s = .next { s with
      psr := psrByte true s.xinit s.xresp false false false 0, action := 0x03,
      status := 0x00, info := 0x00 }) ∧
  (∀ s : State, s.hasPline = true → s.xact = false → s.pstate ≠ 2 →
    exec (.psHard false) s = .next { s with action := 0x00, status := 0x00, info := 0x00 }) ∧
  (∀ s t : State, exec (.psHard true) s = .next t → t.status = 0x00 →
    exec (.psHard true) t = .next t) ∧
  (∀ s : State, s.hasPline = true → s.psr = 0x84 →
    exec (.psHard true) s = .next { s with psr := 0x02, action := 0x00, status := 0x00, info := 0x00 })

/-- R98. -/
def Obligations.PsEnableFollowsItsRule : Prop :=
  decode 0x0111 = .ok (.psEnable true) ∧ decode 0x0011 = .ok (.psEnable false) ∧
  asmOf (.psEnable true) = "PS_ENABLE ON" ∧ asmOf (.psEnable false) = "PS_ENABLE OFF" ∧
  (∀ (s : State) (en : Bool), s.pstate = 2 →
    exec (.psEnable en) s = .next { s with status := 0x05, info := 0x00, action := 0x00 }) ∧
  (∀ (s : State) (en : Bool), s.pstate ≠ 2 →
    exec (.psEnable en) s = .next { s with
      psr := psrByte s.pline s.xinit s.xresp s.xact s.ready en s.pstate,
      result := (if s.psReq = true then 0x01 else 0x00), action := 0x00,
      status := 0x00, info := 0x00 }) ∧
  (∀ s : State, s.psr = 0x88 →
    exec (.psEnable true) s = .next { s with
      psr := 0x8C, result := 0x00, action := 0x00, status := 0x00, info := 0x00 })

/-- R99. -/
def Obligations.PsPreFollowsItsRule : Prop :=
  (∀ resp init : Bool, decode (0x0012 + (if resp = true then 0x0100 else 0)
    + (if init = true then 0x0200 else 0)) = .ok (.psPre resp init)) ∧
  asmOf (.psPre false false) = "PS_PRE" ∧ asmOf (.psPre true false) = "PS_PRE RESP" ∧
  asmOf (.psPre false true) = "PS_PRE INIT" ∧ asmOf (.psPre true true) = "PS_PRE RESP,INIT" ∧
  (∀ (s : State) (resp init : Bool), s.xact = true →
    exec (.psPre resp init) s = .next { s with status := 0x09, info := 0x02, action := 0x00 }) ∧
  (∀ (s : State) (resp init : Bool), s.xact = false → s.pstate = 2 →
    exec (.psPre resp init) s = .next { s with status := 0x05, info := 0x00, action := 0x00 }) ∧
  (∀ (s : State) (resp : Bool), s.xact = false → s.pstate ≠ 2 → s.ready = false →
    s.params.notReady = .reject →
    exec (.psPre resp false) s = .next { s with status := 0x06, info := 0x00, action := 0x00 }) ∧
  (∀ (s : State) (resp init : Bool), s.xact = false → s.pstate ≠ 2 →
    (s.ready = true ∨ init = true ∨ s.params.notReady = .accept) →
    exec (.psPre resp init) s = .next { s with
      psr := psrByte s.pline init resp true s.ready s.psReq (if s.pstate = 1 then 0 else s.pstate),
      action := (if s.pstate = 1 then 0x01 else 0x00), status := 0x00, info := 0x00 }) ∧
  (∀ s : State, s.psr = 0x8D →
    exec (.psPre false false) s = .next { s with
      psr := 0x9C, action := 0x01, status := 0x00, info := 0x00 })

/-- R100, with the eligibility of R96. -/
def Obligations.PsPostFollowsItsRule : Prop :=
  (∀ ok stest : Bool, decode (0x0013 + (if ok = true then 0x0100 else 0)
    + (if stest = true then 0x0200 else 0)) = .ok (.psPost ok stest)) ∧
  asmOf (.psPost false false) = "PS_POST" ∧ asmOf (.psPost true false) = "PS_POST OK" ∧
  asmOf (.psPost false true) = "PS_POST STEST" ∧ asmOf (.psPost true true) = "PS_POST OK,STEST" ∧
  (∀ (s : State) (ok stest : Bool), s.xact = false →
    exec (.psPost ok stest) s = .next { s with status := 0x09, info := 0x03, action := 0x00 }) ∧
  (∀ (s : State) (ok stest : Bool), s.xact = true →
    (ok = true ∧ s.xresp = true ∧ stest = false ∧ s.psReq = true) →
    exec (.psPost ok stest) s = .next { s with
      psr := psrByte s.pline s.xinit s.xresp false (if s.xinit = true then ok else s.ready) s.psReq 1,
      action := 0x02, status := 0x00, info := 0x00 }) ∧
  (∀ (s : State) (ok stest : Bool), s.xact = true →
    ¬ (ok = true ∧ s.xresp = true ∧ stest = false ∧ s.psReq = true) →
    exec (.psPost ok stest) s = .next { s with
      psr := psrByte s.pline s.xinit s.xresp false (if s.xinit = true then ok else s.ready) s.psReq
        s.pstate,
      action := 0x00, status := 0x00, info := 0x00 }) ∧
  (∀ s : State, s.psr = 0xBC →
    exec (.psPost true false) s = .next { s with
      psr := 0xAD, action := 0x02, status := 0x00, info := 0x00 })

/-- The FSM and the codec are two components (00_scope.md R1): a power operation touches no buffer and no
codec register, and with any others it does the same. -/
def Obligations.PowerOperationsIgnoreAndKeepTheCodecState : Prop :=
  ∀ (i : Instr) (s : State), i.isCodec = false →
    (∃ t, exec i s = .next t ∧ t = { s with
      status := t.status, info := t.info, result := t.result, action := t.action, psr := t.psr } ∧
      ((∀ en, i ≠ .psEnable en) → t.result = s.result)) ∧
    ∀ (ibuf fbuf obuf : Memory) (ilen olen : Word) (flen fdir fsr : Byte),
      exec i { s with
          ibuf := ibuf, fbuf := fbuf, obuf := obuf, ilen := ilen, olen := olen, flen := flen,
          fdir := fdir, fsr := fsr }
        = mapNext (fun t => { t with
            ibuf := ibuf, fbuf := fbuf, obuf := obuf, ilen := ilen, olen := olen, flen := flen,
            fdir := fdir, fsr := fsr }) (exec i s)

/-- 10_state.md R25: the fields are the whole of PSR, PSTATE in bits 1:0 up to PLINE in bit 7; the host
cannot write PSR, and no codec operation changes it; at reset every field is 0 but PLINE. -/
def Obligations.PsrHoldsThePowerFieldsBitByBit : Prop :=
  (∀ s : State, s.psr = psrByte s.pline s.xinit s.xresp s.xact s.ready s.psReq s.pstate) ∧
  (∀ (s : State) (v : Word) (rest : List HostStep), s.pending = .regWrite 10 v :: rest →
    ∃ f, step s = .fault f) ∧
  (∀ (i : Instr) (s t : State), i.isCodec = true → exec i s = .next t → t.psr = s.psr) ∧
  State.reset.psr = psrByte true false false false false false 0

/-- 10_state.md R26 to R31: which operation can change which field of PSR. -/
def Obligations.OnlyTheirOperationsChangeThePsrFields : Prop :=
  ∀ (i : Instr) (s t : State), exec i s = .next t →
    (t.pline ≠ s.pline → s.hasPline = true ∧ ∃ down, i = .psHard down) ∧
    (t.psReq ≠ s.psReq → (∃ en, i = .psEnable en) ∨ ∃ down, i = .psHard down) ∧
    (t.ready ≠ s.ready → (∃ down, i = .psHard down) ∨ (s.xinit = true ∧ ∃ ok stest, i = .psPost ok stest)) ∧
    (t.xact ≠ s.xact → (t.xact = true ∧ ∃ resp init, i = .psPre resp init) ∨
      (t.xact = false ∧ ∃ ok stest, i = .psPost ok stest)) ∧
    (t.xresp ≠ s.xresp ∨ t.xinit ≠ s.xinit →
      ∃ resp init, i = .psPre resp init ∧ t.status = 0x00 ∧ t.xresp = resp ∧ t.xinit = init) ∧
    (t.pstate ≠ s.pstate → (∃ down, i = .psHard down) ∨
      (s.pstate = 1 ∧ t.pstate = 0 ∧ ∃ resp init, i = .psPre resp init) ∨
      (t.pstate = 1 ∧ i = .psPost true false))

/-- R96, R102: only PS_POST of an eligible exchange, with PS_REQ set, asks for sleep; so an exchange whose
latched RESP is 0 never does. -/
def Obligations.SleepOnlyAfterAnEligibleExchange : Prop :=
  (∀ (i : Instr) (s t : State), exec i s = .next t → t.action = 0x02 → s.action ≠ 0x02 →
    i = .psPost true false ∧ s.xact = true ∧ s.xresp = true ∧ s.psReq = true ∧ t.pstate = 1) ∧
  (∀ (s t : State) (resp init : Bool), exec (.psPre resp init) s = .next t → t.status = 0x00 →
    t.xresp = resp) ∧
  (∀ (s : State) (ok stest : Bool), s.xresp = false →
    ∃ t, exec (.psPost ok stest) s = .next t ∧ t.action = 0x00)

/-- R99, R101: an admitted exchange, respecting or not, asks for a wake exactly when the device sleeps, and
leaves the power-save request as it was. -/
def Obligations.WakeExactlyFromSoftSave : Prop :=
  (∀ (s t : State) (resp init : Bool), exec (.psPre resp init) s = .next t → t.status = 0x00 →
    (t.action = 0x01 ↔ s.pstate = 1) ∧ t.psReq = s.psReq) ∧
  (∀ (i : Instr) (s t : State), exec i s = .next t → t.action = 0x01 → s.action ≠ 0x01 →
    s.pstate = 1 ∧ t.pstate = 0 ∧ t.xact = true ∧ ∃ resp init, i = .psPre resp init)

/-- R103: from ACTIVE with PS_REQ and READY set, an eligible exchange starts without a wake and ends in
sleep, and whatever exchange comes next wakes the device first. -/
def Obligations.PowerSaveRoundTrip : Prop :=
  ∀ s : State, s.pstate = 0 → s.psReq = true → s.ready = true → s.xact = false →
    ∃ s1 s2, exec (.psPre true false) s = .next s1 ∧ s1.status = 0x00 ∧ s1.action = 0x00 ∧
      exec (.psPost true false) s1 = .next s2 ∧ s2.status = 0x00 ∧ s2.action = 0x02 ∧ s2.pstate = 1 ∧
      ∀ resp init, ∃ s3, exec (.psPre resp init) s2 = .next s3 ∧ s3.status = 0x00 ∧
        s3.action = 0x01 ∧ s3.pstate = 0

/-- R105: power-up from HARD_DOWN asks for initialization; the init exchange is admitted under either
policy, and READY becomes its outcome. -/
def Obligations.PowerUpThenInitialization : Prop :=
  ∀ s : State, s.hasPline = true → s.pstate = 2 → s.xact = false →
    ∃ s1, exec (.psHard false) s = .next s1 ∧ s1.action = 0x03 ∧ s1.pstate = 0 ∧ s1.psReq = false ∧
      s1.ready = false ∧
      ∀ resp, ∃ s2, exec (.psPre resp true) s1 = .next s2 ∧ s2.status = 0x00 ∧ s2.action = 0x00 ∧
        ∀ ok stest, ∃ s3, exec (.psPost ok stest) s2 = .next s3 ∧ s3.status = 0x00 ∧ s3.ready = ok

/-- R144: while an exchange is open, power-down and a second PS_PRE fail and leave the exchange open; closing
it with OK = 0 lets the power-down succeed. -/
def Obligations.AnOpenExchangeBlocksPowerDownUntilClosed : Prop :=
  ∀ s : State, s.hasPline = true → s.xact = true →
    (∀ down, ∃ t, exec (.psHard down) s = .next t ∧ t.status = 0x09 ∧ t.info = 0x02 ∧ t.psr = s.psr) ∧
    (∀ resp init, ∃ t, exec (.psPre resp init) s = .next t ∧ t.status = 0x09 ∧ t.info = 0x02 ∧
      t.psr = s.psr) ∧
    ∀ stest, ∃ t u, exec (.psPost false stest) s = .next t ∧ t.status = 0x00 ∧ t.action = 0x00 ∧
      exec (.psHard true) t = .next u ∧ u.status = 0x00 ∧ u.pstate = 2 ∧ u.pline = false

/-- R95, in the source's own state of 10_state.md R33: what each successful power operation makes of it, and
that a failed one leaves it. `PowerInv` excludes the table's unreachable entries. -/
def Obligations.PowerOperationsFollowTheTransitionTable : Prop :=
  ∀ (s t : State), PowerInv s →
    (exec (.psHard true) s = .next t → t.status = 0x00 →
      t.sourcePower = .hardDown ∧ t.action = 0x00) ∧
    (exec (.psHard false) s = .next t → t.status = 0x00 →
      (s.sourcePower = .hardDown ∧ t.sourcePower = .active false false ∧ t.action = 0x03) ∨
      (s.sourcePower ≠ .hardDown ∧ t.sourcePower = s.sourcePower ∧ t.action = 0x00)) ∧
    (∀ en, exec (.psEnable en) s = .next t → t.status = 0x00 →
      ∃ req asleep, s.sourcePower = .active req asleep ∧ t.sourcePower = .active en asleep ∧
        t.action = 0x00) ∧
    (∀ resp init, exec (.psPre resp init) s = .next t → t.status = 0x00 →
      ∃ req asleep, s.sourcePower = .active req asleep ∧ t.sourcePower = .active req false ∧
        t.action = if asleep = true then 0x01 else 0x00) ∧
    (∀ ok stest, exec (.psPost ok stest) s = .next t → t.status = 0x00 →
      ∃ req, s.sourcePower = .active req false ∧
        t.sourcePower = .active req (ok && s.xresp && !stest && req) ∧
        t.action = if (ok && s.xresp && !stest && req) = true then 0x02 else 0x00) ∧
    (∀ i, exec i s = .next t → t.status ≠ 0x00 → t.sourcePower = s.sourcePower)

/-! ## All operations -/

/-- 60_exceptions.md R119: a failed operation writes STATUS and INFO, and ACTION <- NONE when it is a power
operation; nothing else changes. -/
def Obligations.FailedOperationsChangeOnlyTheirReport : Prop :=
  ∀ (i : Instr) (s t : State), exec i s = .next t → t.status ≠ 0x00 →
    t = { s with
      status := t.status, info := t.info,
      action := if i.isCodec = true then s.action else 0x00 }

/-- 60_exceptions.md R108, R110, R115, R116: a completed operation reports success with INFO 0, or one of its
own errors with that error's STATUS and INFO of 30_encoding.md R70 and R71. -/
def Obligations.EveryOperationReportsOneOfItsOutcomes : Prop :=
  ∀ (i : Instr) (s t : State), exec i s = .next t →
    (t.status = 0x00 ∧ t.info = 0x00) ∨ ∃ e, e ∈ raisedBy i ∧
      (e, t.status, t.info) ∈ ([
        (.checksumLcs, 0x01, 0x01), (.checksumDcs, 0x01, 0x02),
        (.malformedShort, 0x02, 0x01), (.malformedStart, 0x02, 0x02), (.malformedZeroLen, 0x02, 0x03),
        (.malformedTruncated, 0x02, 0x04), (.malformedPostamble, 0x02, 0x05),
        (.unexpectedSawAck, 0x03, 0x01), (.unexpectedSawNack, 0x03, 0x02),
        (.unexpectedSawData, 0x03, 0x03), (.unexpectedDir, 0x03, 0x04),
        (.noHardPowerControl, 0x04, 0x00), (.poweredDown, 0x05, 0x00), (.notReady, 0x06, 0x00),
        (.operandEmpty, 0x07, 0x01), (.operandTooLarge, 0x07, 0x02), (.operandIlenRange, 0x07, 0x03),
        (.sequenceNoFrame, 0x09, 0x01), (.sequenceXactOpen, 0x09, 0x02),
        (.sequenceNoXact, 0x09, 0x03)] : List (Err × Byte × Byte))

/-- 60_exceptions.md R109, 20_memory.md R46: no operation is refused, and from an invariant state an operation
faults only on an unwritten byte among its IBUF operands; ENC and the power operations never fault. -/
def Obligations.OperationsFaultOnlyOnUnwrittenOperands : Prop :=
  (∀ (i : Instr) (s : State) (r : Refusal), exec i s ≠ .refused r) ∧
  (∀ (i : Instr) (s : State) (f : Fault), Inv s → exec i s = .fault f →
    i.readsIbuf = true ∧
      ∃ n, n < s.ilen.toNat ∧ Memory.read s.ibuf n = none ∧ f = .unwrittenRead .ibuf n)

/-- 10_state.md R20, R32, 20_memory.md R37: only the host changes IBUF and ILEN, and only construction CFG
(construction as a step is the model's, log 5). -/
def Obligations.OnlyTheHostChangesIbufIlenAndCfg : Prop :=
  ∀ (s t : State) (h : HostStep) (rest : List HostStep), s.pending = h :: rest → step s = .next t →
    (∀ p, h ≠ .construct p) →
    t.cfg = s.cfg ∧ t.params = s.params ∧
    (t.ibuf ≠ s.ibuf → ∃ i v, h = .bufWrite .ibuf i v) ∧
    (t.ilen ≠ s.ilen → h = .regWrite 5 t.ilen)

/-- 20_memory.md R38, 10_state.md R22 to R24: FBUF and the frame registers change only in a successful MKCMD,
MKDX, DEC.D2H or DEC.H2D, which sets FVALID and leaves the bytes from FLEN on; FVALID is never cleared. -/
def Obligations.TheHeldFrameChangesOnlyBySuccess : Prop :=
  ∀ (i : Instr) (s t : State), exec i s = .next t →
    ((t.fbuf ≠ s.fbuf ∨ t.flen ≠ s.flen ∨ t.fdir ≠ s.fdir ∨ t.fsr ≠ s.fsr) →
      (i = .mkcmd ∨ i = .mkdx ∨ i = .decD2h ∨ i = .decH2d) ∧ t.status = 0x00 ∧ t.fvalid = true) ∧
    (∀ k, t.flen.toNat ≤ k → Memory.read t.fbuf k = Memory.read s.fbuf k) ∧
    (s.fvalid = true → t.fvalid = true)

/-- 20_memory.md R39, 10_state.md R21: OBUF and OLEN change only in a successful ENC, which makes OLEN
FLEN + 8 and leaves the bytes from OLEN on. -/
def Obligations.TheOutputChangesOnlyBySuccessfulEnc : Prop :=
  ∀ (i : Instr) (s t : State), exec i s = .next t →
    ((t.obuf ≠ s.obuf ∨ t.olen ≠ s.olen) →
      i = .enc ∧ t.status = 0x00 ∧ t.olen.toNat = s.flen.toNat + 8) ∧
    (t.status = 0x00 → i = .enc → ∀ k, t.olen.toNat ≤ k →
      Memory.read t.obuf k = Memory.read s.obuf k)

/-- 70_reset_and_hazards.md R142: a failed build or decode, and a successful DEC.ACK, leave the held frame, so
that ENC afterwards encodes the previous frame. -/
def Obligations.AFailedBuildOrDecodeKeepsThePreviousFrame : Prop :=
  ∀ (i : Instr) (s t : State) (p : Bytes),
    i = .mkcmd ∨ i = .mkdx ∨ i = .decD2h ∨ i = .decH2d ∨ i = .decAck →
    HeldFrameIs s p → exec i s = .next t → (t.status ≠ 0x00 ∨ i = .decAck) →
    HeldFrameIs t p ∧ t.fdir = s.fdir ∧
      ∃ u, exec .enc t = .next u ∧ u.olen.toNat = p.length + 8 ∧ Holds u.obuf (wireFrame s.fdir p)

/-- 30_encoding.md R77: what the steps of each pseudo-operation do when they are the host's next ones. LOAD
makes the bytes the operand, COPYOUT makes the encoded frame the operand, FRAME and DXFRAME put the wire frame
of their bytes into OBUF. -/
def Obligations.PseudoOperationsHaveTheirEffect : Prop :=
  (∀ (s : State) (b : Bytes) (rest : List HostStep), b.length ≤ 262 → s.pending = load b ++ rest →
    ∃ t, runSteps (load b).length s = .next t ∧ t.pending = rest ∧ OperandIs t b) ∧
  (∀ (s : State) (b : Bytes) (rest : List HostStep), b.length ≤ 262 → s.olen.toNat = b.length →
    Holds s.obuf b → s.pending = copyOut b ++ rest →
    ∃ t, runSteps (copyOut b).length s = .next t ∧ t.pending = rest ∧ OperandIs t b) ∧
  (∀ (s : State) (b : Bytes) (rest : List HostStep), 1 ≤ b.length →
    b.length ≤ s.params.maxPayload.val → s.pending = frame b ++ rest →
    ∃ t, runSteps (frame b).length s = .next t ∧ t.pending = rest ∧ t.status = 0x00 ∧
      t.olen.toNat = b.length + 8 ∧ Holds t.obuf (wireFrame 0xD4 b)) ∧
  (∀ (s : State) (b : Bytes) (rest : List HostStep), 1 ≤ b.length →
    b.length + 1 ≤ s.params.maxPayload.val → s.pending = dxframe b ++ rest →
    ∃ t, runSteps (dxframe b).length s = .next t ∧ t.pending = rest ∧ t.status = 0x00 ∧
      t.olen.toNat = b.length + 9 ∧ Holds t.obuf (wireFrame 0xD4 (0x40 :: b)))

/-! ## Reset and invariants -/

/-- 10_state.md R35, 70_reset_and_hazards.md R129: every register and field after construction, and no buffer
byte written. -/
def Obligations.ConstructionGivesTheResetValues : Prop :=
  ∀ (h : Bool) (p : Params) (s : State), s = State.construct h p →
    s.status = 0x00 ∧ s.info = 0x00 ∧ s.result = 0x00 ∧ s.action = 0x03 ∧
    s.ilen = 0x0000 ∧ s.olen = 0x0000 ∧ s.flen = 0x00 ∧ s.fdir = 0x00 ∧ s.fsr = 0x00 ∧
    s.psr = 0x80 ∧ s.fvalid = false ∧ s.pstate = 0 ∧ s.psReq = false ∧ s.ready = false ∧
    s.xact = false ∧ s.xresp = false ∧ s.xinit = false ∧ s.pline = true ∧
    s.cfg = (if h = true then 0x01 else 0x00) ∧ s.hasPline = h ∧
    ∀ (S : Space) (i : Nat), Memory.read (s.space S) i = none

/-- 70_reset_and_hazards.md R128, R131: construction can come at any time and ends an open exchange. That it is
a step of the host, that the parameters (log 3) and the host's further steps outlive it, and that it clears
what the latest read returned (log 2), is the model's choice of log 5. -/
def Obligations.ConstructionCanComeAtAnyTime : Prop :=
  ∀ (s : State) (h : Bool) (rest : List HostStep), s.pending = .construct h :: rest →
    ∃ t, step s = .next t ∧ t = { State.construct h s.params with pending := rest } ∧
      t.params = s.params ∧ t.pending = rest ∧ t.readOut = none ∧ t.hasPline = h ∧ t.xact = false

/-- Construction meets the invariant, for every input, and so does `State.reset` (its HAS_PLINE and policy are
the free values of log 4). -/
def Obligations.ConstructionMeetsTheInvariant : Prop :=
  (∀ (h : Bool) (p : Params), p.wf = true → Inv (State.construct h p)) ∧ Inv State.reset

/-- 10_state.md R34, 41_power_fsm.md R106 and the buffers' canonical form: every step keeps the invariant. -/
def Obligations.EveryStepKeepsTheInvariant : Prop :=
  ∀ s t : State, Inv s → step s = .next t → Inv t

/-! ## Reports to the host -/

/-- 40_frame_codec.md R93, 60_exceptions.md R111 and 90_conflicts.md C5: how the host reports what DEC and ACKCHK answer, by
stage. In the ACK stage both accept exactly an operand that begins with the ACK sentinel, and anything else,
an ILEN out of range included, is a transmission failure, which is retried. In the response stage every DEC
failure is a `FrameError`, which is not (for OperandError the reading of log 14). The last clause is R111's
mapping of a code alone. -/
def Obligations.HostReportsFollowTheStage : Prop :=
  (∀ (s : State) (b : Bytes) (i : Instr), i = .decAck ∨ i = .ackchk → OperandIs s b →
    ∃ t, exec i s = .next t ∧
      ((∃ tail, b = [0x00, 0x00, 0xFF, 0x00, 0xFF, 0x00] ++ tail) →
        hostReport .ackStage i t = .accepted) ∧
      ((∀ tail, b ≠ [0x00, 0x00, 0xFF, 0x00, 0xFF, 0x00] ++ tail) →
        hostReport .ackStage i t = .transmissionFailure)) ∧
  (∀ (s : State) (i : Instr), i = .decAck ∨ i = .ackchk → 262 < s.ilen.toNat →
    ∃ t, exec i s = .next t ∧ hostReport .ackStage i t = .transmissionFailure) ∧
  (∀ (s t : State) (i : Instr), i = .decD2h ∨ i = .decH2d ∨ i = .decAck → exec i s = .next t →
    (t.status ≠ 0x00 → hostReport .responseStage i t = .frameError) ∧
    (t.status = 0x00 → hostReport .responseStage i t = .accepted)) ∧
  HostReport.transmissionFailure.retried = true ∧ HostReport.frameError.retried = false ∧
  (∀ c : StatusCode, c.code = 0x01 ∨ c.code = 0x02 ∨ c.code = 0x03 →
    c.report .responseStage = .frameError ∧ c.report .ackStage = .transmissionFailure)
end

