-- ==== Sys2Proof/Laws/State.lean ====
section
/-! SUPPORT. What each field is after each named update of State, one lemma per field and update. -/

namespace Sys2Proof.Machine

/-! `complete` -/

@[simp] theorem State.complete_status (s : State) : (s.complete).status = StatusCode.ok.code := rfl
@[simp] theorem State.complete_info (s : State) : (s.complete).info = 0x00 := rfl
@[simp] theorem State.complete_result (s : State) : (s.complete).result = s.result := rfl
@[simp] theorem State.complete_action (s : State) : (s.complete).action = s.action := rfl
@[simp] theorem State.complete_ilen (s : State) : (s.complete).ilen = s.ilen := rfl
@[simp] theorem State.complete_olen (s : State) : (s.complete).olen = s.olen := rfl
@[simp] theorem State.complete_flen (s : State) : (s.complete).flen = s.flen := rfl
@[simp] theorem State.complete_fdir (s : State) : (s.complete).fdir = s.fdir := rfl
@[simp] theorem State.complete_fsr (s : State) : (s.complete).fsr = s.fsr := rfl
@[simp] theorem State.complete_psr (s : State) : (s.complete).psr = s.psr := rfl
@[simp] theorem State.complete_cfg (s : State) : (s.complete).cfg = s.cfg := rfl
@[simp] theorem State.complete_ibuf (s : State) : (s.complete).ibuf = s.ibuf := rfl
@[simp] theorem State.complete_fbuf (s : State) : (s.complete).fbuf = s.fbuf := rfl
@[simp] theorem State.complete_obuf (s : State) : (s.complete).obuf = s.obuf := rfl
@[simp] theorem State.complete_params (s : State) : (s.complete).params = s.params := rfl
@[simp] theorem State.complete_pending (s : State) : (s.complete).pending = s.pending := rfl
@[simp] theorem State.complete_readOut (s : State) : (s.complete).readOut = s.readOut := rfl

/-! `raise` -/

@[simp] theorem State.raise_status (s : State) (f : Family) (e : Err) : (s.raise f e).status = e.status := rfl
@[simp] theorem State.raise_info (s : State) (f : Family) (e : Err) : (s.raise f e).info = e.info := rfl
@[simp] theorem State.raise_result (s : State) (f : Family) (e : Err) : (s.raise f e).result = s.result := rfl
@[simp] theorem State.raise_action (s : State) (f : Family) (e : Err) : (s.raise f e).action = if f = .power then Action.none.code else s.action := rfl
@[simp] theorem State.raise_ilen (s : State) (f : Family) (e : Err) : (s.raise f e).ilen = s.ilen := rfl
@[simp] theorem State.raise_olen (s : State) (f : Family) (e : Err) : (s.raise f e).olen = s.olen := rfl
@[simp] theorem State.raise_flen (s : State) (f : Family) (e : Err) : (s.raise f e).flen = s.flen := rfl
@[simp] theorem State.raise_fdir (s : State) (f : Family) (e : Err) : (s.raise f e).fdir = s.fdir := rfl
@[simp] theorem State.raise_fsr (s : State) (f : Family) (e : Err) : (s.raise f e).fsr = s.fsr := rfl
@[simp] theorem State.raise_psr (s : State) (f : Family) (e : Err) : (s.raise f e).psr = s.psr := rfl
@[simp] theorem State.raise_cfg (s : State) (f : Family) (e : Err) : (s.raise f e).cfg = s.cfg := rfl
@[simp] theorem State.raise_ibuf (s : State) (f : Family) (e : Err) : (s.raise f e).ibuf = s.ibuf := rfl
@[simp] theorem State.raise_fbuf (s : State) (f : Family) (e : Err) : (s.raise f e).fbuf = s.fbuf := rfl
@[simp] theorem State.raise_obuf (s : State) (f : Family) (e : Err) : (s.raise f e).obuf = s.obuf := rfl
@[simp] theorem State.raise_params (s : State) (f : Family) (e : Err) : (s.raise f e).params = s.params := rfl
@[simp] theorem State.raise_pending (s : State) (f : Family) (e : Err) : (s.raise f e).pending = s.pending := rfl
@[simp] theorem State.raise_readOut (s : State) (f : Family) (e : Err) : (s.raise f e).readOut = s.readOut := rfl

/-! `setResult` -/

@[simp] theorem State.setResult_status (s : State) (v : Byte) : (s.setResult v).status = s.status := rfl
@[simp] theorem State.setResult_info (s : State) (v : Byte) : (s.setResult v).info = s.info := rfl
@[simp] theorem State.setResult_result (s : State) (v : Byte) : (s.setResult v).result = v := rfl
@[simp] theorem State.setResult_action (s : State) (v : Byte) : (s.setResult v).action = s.action := rfl
@[simp] theorem State.setResult_ilen (s : State) (v : Byte) : (s.setResult v).ilen = s.ilen := rfl
@[simp] theorem State.setResult_olen (s : State) (v : Byte) : (s.setResult v).olen = s.olen := rfl
@[simp] theorem State.setResult_flen (s : State) (v : Byte) : (s.setResult v).flen = s.flen := rfl
@[simp] theorem State.setResult_fdir (s : State) (v : Byte) : (s.setResult v).fdir = s.fdir := rfl
@[simp] theorem State.setResult_fsr (s : State) (v : Byte) : (s.setResult v).fsr = s.fsr := rfl
@[simp] theorem State.setResult_psr (s : State) (v : Byte) : (s.setResult v).psr = s.psr := rfl
@[simp] theorem State.setResult_cfg (s : State) (v : Byte) : (s.setResult v).cfg = s.cfg := rfl
@[simp] theorem State.setResult_ibuf (s : State) (v : Byte) : (s.setResult v).ibuf = s.ibuf := rfl
@[simp] theorem State.setResult_fbuf (s : State) (v : Byte) : (s.setResult v).fbuf = s.fbuf := rfl
@[simp] theorem State.setResult_obuf (s : State) (v : Byte) : (s.setResult v).obuf = s.obuf := rfl
@[simp] theorem State.setResult_params (s : State) (v : Byte) : (s.setResult v).params = s.params := rfl
@[simp] theorem State.setResult_pending (s : State) (v : Byte) : (s.setResult v).pending = s.pending := rfl
@[simp] theorem State.setResult_readOut (s : State) (v : Byte) : (s.setResult v).readOut = s.readOut := rfl

/-! `setAction` -/

@[simp] theorem State.setAction_status (s : State) (a : Action) : (s.setAction a).status = s.status := rfl
@[simp] theorem State.setAction_info (s : State) (a : Action) : (s.setAction a).info = s.info := rfl
@[simp] theorem State.setAction_result (s : State) (a : Action) : (s.setAction a).result = s.result := rfl
@[simp] theorem State.setAction_action (s : State) (a : Action) : (s.setAction a).action = a.code := rfl
@[simp] theorem State.setAction_ilen (s : State) (a : Action) : (s.setAction a).ilen = s.ilen := rfl
@[simp] theorem State.setAction_olen (s : State) (a : Action) : (s.setAction a).olen = s.olen := rfl
@[simp] theorem State.setAction_flen (s : State) (a : Action) : (s.setAction a).flen = s.flen := rfl
@[simp] theorem State.setAction_fdir (s : State) (a : Action) : (s.setAction a).fdir = s.fdir := rfl
@[simp] theorem State.setAction_fsr (s : State) (a : Action) : (s.setAction a).fsr = s.fsr := rfl
@[simp] theorem State.setAction_psr (s : State) (a : Action) : (s.setAction a).psr = s.psr := rfl
@[simp] theorem State.setAction_cfg (s : State) (a : Action) : (s.setAction a).cfg = s.cfg := rfl
@[simp] theorem State.setAction_ibuf (s : State) (a : Action) : (s.setAction a).ibuf = s.ibuf := rfl
@[simp] theorem State.setAction_fbuf (s : State) (a : Action) : (s.setAction a).fbuf = s.fbuf := rfl
@[simp] theorem State.setAction_obuf (s : State) (a : Action) : (s.setAction a).obuf = s.obuf := rfl
@[simp] theorem State.setAction_params (s : State) (a : Action) : (s.setAction a).params = s.params := rfl
@[simp] theorem State.setAction_pending (s : State) (a : Action) : (s.setAction a).pending = s.pending := rfl
@[simp] theorem State.setAction_readOut (s : State) (a : Action) : (s.setAction a).readOut = s.readOut := rfl

/-! `holdFrame` -/

@[simp] theorem State.holdFrame_status (s : State) (d : Byte) (p : Bytes) : (s.holdFrame d p).status = s.status := rfl
@[simp] theorem State.holdFrame_info (s : State) (d : Byte) (p : Bytes) : (s.holdFrame d p).info = s.info := rfl
@[simp] theorem State.holdFrame_result (s : State) (d : Byte) (p : Bytes) : (s.holdFrame d p).result = s.result := rfl
@[simp] theorem State.holdFrame_action (s : State) (d : Byte) (p : Bytes) : (s.holdFrame d p).action = s.action := rfl
@[simp] theorem State.holdFrame_ilen (s : State) (d : Byte) (p : Bytes) : (s.holdFrame d p).ilen = s.ilen := rfl
@[simp] theorem State.holdFrame_olen (s : State) (d : Byte) (p : Bytes) : (s.holdFrame d p).olen = s.olen := rfl
@[simp] theorem State.holdFrame_flen (s : State) (d : Byte) (p : Bytes) : (s.holdFrame d p).flen = BitVec.ofNat 8 p.length := rfl
@[simp] theorem State.holdFrame_fdir (s : State) (d : Byte) (p : Bytes) : (s.holdFrame d p).fdir = d := rfl
@[simp] theorem State.holdFrame_fsr (s : State) (d : Byte) (p : Bytes) : (s.holdFrame d p).fsr = setBit s.fsr 0 true := rfl
@[simp] theorem State.holdFrame_psr (s : State) (d : Byte) (p : Bytes) : (s.holdFrame d p).psr = s.psr := rfl
@[simp] theorem State.holdFrame_cfg (s : State) (d : Byte) (p : Bytes) : (s.holdFrame d p).cfg = s.cfg := rfl
@[simp] theorem State.holdFrame_ibuf (s : State) (d : Byte) (p : Bytes) : (s.holdFrame d p).ibuf = s.ibuf := rfl
@[simp] theorem State.holdFrame_fbuf (s : State) (d : Byte) (p : Bytes) : (s.holdFrame d p).fbuf = Memory.writeRange s.fbuf 0 p := rfl
@[simp] theorem State.holdFrame_obuf (s : State) (d : Byte) (p : Bytes) : (s.holdFrame d p).obuf = s.obuf := rfl
@[simp] theorem State.holdFrame_params (s : State) (d : Byte) (p : Bytes) : (s.holdFrame d p).params = s.params := rfl
@[simp] theorem State.holdFrame_pending (s : State) (d : Byte) (p : Bytes) : (s.holdFrame d p).pending = s.pending := rfl
@[simp] theorem State.holdFrame_readOut (s : State) (d : Byte) (p : Bytes) : (s.holdFrame d p).readOut = s.readOut := rfl

/-! `putOutput` -/

@[simp] theorem State.putOutput_status (s : State) (b : Bytes) : (s.putOutput b).status = s.status := rfl
@[simp] theorem State.putOutput_info (s : State) (b : Bytes) : (s.putOutput b).info = s.info := rfl
@[simp] theorem State.putOutput_result (s : State) (b : Bytes) : (s.putOutput b).result = s.result := rfl
@[simp] theorem State.putOutput_action (s : State) (b : Bytes) : (s.putOutput b).action = s.action := rfl
@[simp] theorem State.putOutput_ilen (s : State) (b : Bytes) : (s.putOutput b).ilen = s.ilen := rfl
@[simp] theorem State.putOutput_olen (s : State) (b : Bytes) : (s.putOutput b).olen = BitVec.ofNat 16 b.length := rfl
@[simp] theorem State.putOutput_flen (s : State) (b : Bytes) : (s.putOutput b).flen = s.flen := rfl
@[simp] theorem State.putOutput_fdir (s : State) (b : Bytes) : (s.putOutput b).fdir = s.fdir := rfl
@[simp] theorem State.putOutput_fsr (s : State) (b : Bytes) : (s.putOutput b).fsr = s.fsr := rfl
@[simp] theorem State.putOutput_psr (s : State) (b : Bytes) : (s.putOutput b).psr = s.psr := rfl
@[simp] theorem State.putOutput_cfg (s : State) (b : Bytes) : (s.putOutput b).cfg = s.cfg := rfl
@[simp] theorem State.putOutput_ibuf (s : State) (b : Bytes) : (s.putOutput b).ibuf = s.ibuf := rfl
@[simp] theorem State.putOutput_fbuf (s : State) (b : Bytes) : (s.putOutput b).fbuf = s.fbuf := rfl
@[simp] theorem State.putOutput_obuf (s : State) (b : Bytes) : (s.putOutput b).obuf = Memory.writeRange s.obuf 0 b := rfl
@[simp] theorem State.putOutput_params (s : State) (b : Bytes) : (s.putOutput b).params = s.params := rfl
@[simp] theorem State.putOutput_pending (s : State) (b : Bytes) : (s.putOutput b).pending = s.pending := rfl
@[simp] theorem State.putOutput_readOut (s : State) (b : Bytes) : (s.putOutput b).readOut = s.readOut := rfl

/-! `setPstate` -/

@[simp] theorem State.setPstate_status (s : State) (x : PState) : (s.setPstate x).status = s.status := rfl
@[simp] theorem State.setPstate_info (s : State) (x : PState) : (s.setPstate x).info = s.info := rfl
@[simp] theorem State.setPstate_result (s : State) (x : PState) : (s.setPstate x).result = s.result := rfl
@[simp] theorem State.setPstate_action (s : State) (x : PState) : (s.setPstate x).action = s.action := rfl
@[simp] theorem State.setPstate_ilen (s : State) (x : PState) : (s.setPstate x).ilen = s.ilen := rfl
@[simp] theorem State.setPstate_olen (s : State) (x : PState) : (s.setPstate x).olen = s.olen := rfl
@[simp] theorem State.setPstate_flen (s : State) (x : PState) : (s.setPstate x).flen = s.flen := rfl
@[simp] theorem State.setPstate_fdir (s : State) (x : PState) : (s.setPstate x).fdir = s.fdir := rfl
@[simp] theorem State.setPstate_fsr (s : State) (x : PState) : (s.setPstate x).fsr = s.fsr := rfl
@[simp] theorem State.setPstate_psr (s : State) (x : PState) : (s.setPstate x).psr = setLowBits s.psr x.code := rfl
@[simp] theorem State.setPstate_cfg (s : State) (x : PState) : (s.setPstate x).cfg = s.cfg := rfl
@[simp] theorem State.setPstate_ibuf (s : State) (x : PState) : (s.setPstate x).ibuf = s.ibuf := rfl
@[simp] theorem State.setPstate_fbuf (s : State) (x : PState) : (s.setPstate x).fbuf = s.fbuf := rfl
@[simp] theorem State.setPstate_obuf (s : State) (x : PState) : (s.setPstate x).obuf = s.obuf := rfl
@[simp] theorem State.setPstate_params (s : State) (x : PState) : (s.setPstate x).params = s.params := rfl
@[simp] theorem State.setPstate_pending (s : State) (x : PState) : (s.setPstate x).pending = s.pending := rfl
@[simp] theorem State.setPstate_readOut (s : State) (x : PState) : (s.setPstate x).readOut = s.readOut := rfl

/-! `setPsReq` -/

@[simp] theorem State.setPsReq_status (s : State) (b : Bool) : (s.setPsReq b).status = s.status := rfl
@[simp] theorem State.setPsReq_info (s : State) (b : Bool) : (s.setPsReq b).info = s.info := rfl
@[simp] theorem State.setPsReq_result (s : State) (b : Bool) : (s.setPsReq b).result = s.result := rfl
@[simp] theorem State.setPsReq_action (s : State) (b : Bool) : (s.setPsReq b).action = s.action := rfl
@[simp] theorem State.setPsReq_ilen (s : State) (b : Bool) : (s.setPsReq b).ilen = s.ilen := rfl
@[simp] theorem State.setPsReq_olen (s : State) (b : Bool) : (s.setPsReq b).olen = s.olen := rfl
@[simp] theorem State.setPsReq_flen (s : State) (b : Bool) : (s.setPsReq b).flen = s.flen := rfl
@[simp] theorem State.setPsReq_fdir (s : State) (b : Bool) : (s.setPsReq b).fdir = s.fdir := rfl
@[simp] theorem State.setPsReq_fsr (s : State) (b : Bool) : (s.setPsReq b).fsr = s.fsr := rfl
@[simp] theorem State.setPsReq_psr (s : State) (b : Bool) : (s.setPsReq b).psr = setBit s.psr 2 b := rfl
@[simp] theorem State.setPsReq_cfg (s : State) (b : Bool) : (s.setPsReq b).cfg = s.cfg := rfl
@[simp] theorem State.setPsReq_ibuf (s : State) (b : Bool) : (s.setPsReq b).ibuf = s.ibuf := rfl
@[simp] theorem State.setPsReq_fbuf (s : State) (b : Bool) : (s.setPsReq b).fbuf = s.fbuf := rfl
@[simp] theorem State.setPsReq_obuf (s : State) (b : Bool) : (s.setPsReq b).obuf = s.obuf := rfl
@[simp] theorem State.setPsReq_params (s : State) (b : Bool) : (s.setPsReq b).params = s.params := rfl
@[simp] theorem State.setPsReq_pending (s : State) (b : Bool) : (s.setPsReq b).pending = s.pending := rfl
@[simp] theorem State.setPsReq_readOut (s : State) (b : Bool) : (s.setPsReq b).readOut = s.readOut := rfl

/-! `setReady` -/

@[simp] theorem State.setReady_status (s : State) (b : Bool) : (s.setReady b).status = s.status := rfl
@[simp] theorem State.setReady_info (s : State) (b : Bool) : (s.setReady b).info = s.info := rfl
@[simp] theorem State.setReady_result (s : State) (b : Bool) : (s.setReady b).result = s.result := rfl
@[simp] theorem State.setReady_action (s : State) (b : Bool) : (s.setReady b).action = s.action := rfl
@[simp] theorem State.setReady_ilen (s : State) (b : Bool) : (s.setReady b).ilen = s.ilen := rfl
@[simp] theorem State.setReady_olen (s : State) (b : Bool) : (s.setReady b).olen = s.olen := rfl
@[simp] theorem State.setReady_flen (s : State) (b : Bool) : (s.setReady b).flen = s.flen := rfl
@[simp] theorem State.setReady_fdir (s : State) (b : Bool) : (s.setReady b).fdir = s.fdir := rfl
@[simp] theorem State.setReady_fsr (s : State) (b : Bool) : (s.setReady b).fsr = s.fsr := rfl
@[simp] theorem State.setReady_psr (s : State) (b : Bool) : (s.setReady b).psr = setBit s.psr 3 b := rfl
@[simp] theorem State.setReady_cfg (s : State) (b : Bool) : (s.setReady b).cfg = s.cfg := rfl
@[simp] theorem State.setReady_ibuf (s : State) (b : Bool) : (s.setReady b).ibuf = s.ibuf := rfl
@[simp] theorem State.setReady_fbuf (s : State) (b : Bool) : (s.setReady b).fbuf = s.fbuf := rfl
@[simp] theorem State.setReady_obuf (s : State) (b : Bool) : (s.setReady b).obuf = s.obuf := rfl
@[simp] theorem State.setReady_params (s : State) (b : Bool) : (s.setReady b).params = s.params := rfl
@[simp] theorem State.setReady_pending (s : State) (b : Bool) : (s.setReady b).pending = s.pending := rfl
@[simp] theorem State.setReady_readOut (s : State) (b : Bool) : (s.setReady b).readOut = s.readOut := rfl

/-! `setXact` -/

@[simp] theorem State.setXact_status (s : State) (b : Bool) : (s.setXact b).status = s.status := rfl
@[simp] theorem State.setXact_info (s : State) (b : Bool) : (s.setXact b).info = s.info := rfl
@[simp] theorem State.setXact_result (s : State) (b : Bool) : (s.setXact b).result = s.result := rfl
@[simp] theorem State.setXact_action (s : State) (b : Bool) : (s.setXact b).action = s.action := rfl
@[simp] theorem State.setXact_ilen (s : State) (b : Bool) : (s.setXact b).ilen = s.ilen := rfl
@[simp] theorem State.setXact_olen (s : State) (b : Bool) : (s.setXact b).olen = s.olen := rfl
@[simp] theorem State.setXact_flen (s : State) (b : Bool) : (s.setXact b).flen = s.flen := rfl
@[simp] theorem State.setXact_fdir (s : State) (b : Bool) : (s.setXact b).fdir = s.fdir := rfl
@[simp] theorem State.setXact_fsr (s : State) (b : Bool) : (s.setXact b).fsr = s.fsr := rfl
@[simp] theorem State.setXact_psr (s : State) (b : Bool) : (s.setXact b).psr = setBit s.psr 4 b := rfl
@[simp] theorem State.setXact_cfg (s : State) (b : Bool) : (s.setXact b).cfg = s.cfg := rfl
@[simp] theorem State.setXact_ibuf (s : State) (b : Bool) : (s.setXact b).ibuf = s.ibuf := rfl
@[simp] theorem State.setXact_fbuf (s : State) (b : Bool) : (s.setXact b).fbuf = s.fbuf := rfl
@[simp] theorem State.setXact_obuf (s : State) (b : Bool) : (s.setXact b).obuf = s.obuf := rfl
@[simp] theorem State.setXact_params (s : State) (b : Bool) : (s.setXact b).params = s.params := rfl
@[simp] theorem State.setXact_pending (s : State) (b : Bool) : (s.setXact b).pending = s.pending := rfl
@[simp] theorem State.setXact_readOut (s : State) (b : Bool) : (s.setXact b).readOut = s.readOut := rfl

/-! `setXresp` -/

@[simp] theorem State.setXresp_status (s : State) (b : Bool) : (s.setXresp b).status = s.status := rfl
@[simp] theorem State.setXresp_info (s : State) (b : Bool) : (s.setXresp b).info = s.info := rfl
@[simp] theorem State.setXresp_result (s : State) (b : Bool) : (s.setXresp b).result = s.result := rfl
@[simp] theorem State.setXresp_action (s : State) (b : Bool) : (s.setXresp b).action = s.action := rfl
@[simp] theorem State.setXresp_ilen (s : State) (b : Bool) : (s.setXresp b).ilen = s.ilen := rfl
@[simp] theorem State.setXresp_olen (s : State) (b : Bool) : (s.setXresp b).olen = s.olen := rfl
@[simp] theorem State.setXresp_flen (s : State) (b : Bool) : (s.setXresp b).flen = s.flen := rfl
@[simp] theorem State.setXresp_fdir (s : State) (b : Bool) : (s.setXresp b).fdir = s.fdir := rfl
@[simp] theorem State.setXresp_fsr (s : State) (b : Bool) : (s.setXresp b).fsr = s.fsr := rfl
@[simp] theorem State.setXresp_psr (s : State) (b : Bool) : (s.setXresp b).psr = setBit s.psr 5 b := rfl
@[simp] theorem State.setXresp_cfg (s : State) (b : Bool) : (s.setXresp b).cfg = s.cfg := rfl
@[simp] theorem State.setXresp_ibuf (s : State) (b : Bool) : (s.setXresp b).ibuf = s.ibuf := rfl
@[simp] theorem State.setXresp_fbuf (s : State) (b : Bool) : (s.setXresp b).fbuf = s.fbuf := rfl
@[simp] theorem State.setXresp_obuf (s : State) (b : Bool) : (s.setXresp b).obuf = s.obuf := rfl
@[simp] theorem State.setXresp_params (s : State) (b : Bool) : (s.setXresp b).params = s.params := rfl
@[simp] theorem State.setXresp_pending (s : State) (b : Bool) : (s.setXresp b).pending = s.pending := rfl
@[simp] theorem State.setXresp_readOut (s : State) (b : Bool) : (s.setXresp b).readOut = s.readOut := rfl

/-! `setXinit` -/

@[simp] theorem State.setXinit_status (s : State) (b : Bool) : (s.setXinit b).status = s.status := rfl
@[simp] theorem State.setXinit_info (s : State) (b : Bool) : (s.setXinit b).info = s.info := rfl
@[simp] theorem State.setXinit_result (s : State) (b : Bool) : (s.setXinit b).result = s.result := rfl
@[simp] theorem State.setXinit_action (s : State) (b : Bool) : (s.setXinit b).action = s.action := rfl
@[simp] theorem State.setXinit_ilen (s : State) (b : Bool) : (s.setXinit b).ilen = s.ilen := rfl
@[simp] theorem State.setXinit_olen (s : State) (b : Bool) : (s.setXinit b).olen = s.olen := rfl
@[simp] theorem State.setXinit_flen (s : State) (b : Bool) : (s.setXinit b).flen = s.flen := rfl
@[simp] theorem State.setXinit_fdir (s : State) (b : Bool) : (s.setXinit b).fdir = s.fdir := rfl
@[simp] theorem State.setXinit_fsr (s : State) (b : Bool) : (s.setXinit b).fsr = s.fsr := rfl
@[simp] theorem State.setXinit_psr (s : State) (b : Bool) : (s.setXinit b).psr = setBit s.psr 6 b := rfl
@[simp] theorem State.setXinit_cfg (s : State) (b : Bool) : (s.setXinit b).cfg = s.cfg := rfl
@[simp] theorem State.setXinit_ibuf (s : State) (b : Bool) : (s.setXinit b).ibuf = s.ibuf := rfl
@[simp] theorem State.setXinit_fbuf (s : State) (b : Bool) : (s.setXinit b).fbuf = s.fbuf := rfl
@[simp] theorem State.setXinit_obuf (s : State) (b : Bool) : (s.setXinit b).obuf = s.obuf := rfl
@[simp] theorem State.setXinit_params (s : State) (b : Bool) : (s.setXinit b).params = s.params := rfl
@[simp] theorem State.setXinit_pending (s : State) (b : Bool) : (s.setXinit b).pending = s.pending := rfl
@[simp] theorem State.setXinit_readOut (s : State) (b : Bool) : (s.setXinit b).readOut = s.readOut := rfl

/-! `setPline` -/

@[simp] theorem State.setPline_status (s : State) (b : Bool) : (s.setPline b).status = s.status := rfl
@[simp] theorem State.setPline_info (s : State) (b : Bool) : (s.setPline b).info = s.info := rfl
@[simp] theorem State.setPline_result (s : State) (b : Bool) : (s.setPline b).result = s.result := rfl
@[simp] theorem State.setPline_action (s : State) (b : Bool) : (s.setPline b).action = s.action := rfl
@[simp] theorem State.setPline_ilen (s : State) (b : Bool) : (s.setPline b).ilen = s.ilen := rfl
@[simp] theorem State.setPline_olen (s : State) (b : Bool) : (s.setPline b).olen = s.olen := rfl
@[simp] theorem State.setPline_flen (s : State) (b : Bool) : (s.setPline b).flen = s.flen := rfl
@[simp] theorem State.setPline_fdir (s : State) (b : Bool) : (s.setPline b).fdir = s.fdir := rfl
@[simp] theorem State.setPline_fsr (s : State) (b : Bool) : (s.setPline b).fsr = s.fsr := rfl
@[simp] theorem State.setPline_psr (s : State) (b : Bool) : (s.setPline b).psr = setBit s.psr 7 b := rfl
@[simp] theorem State.setPline_cfg (s : State) (b : Bool) : (s.setPline b).cfg = s.cfg := rfl
@[simp] theorem State.setPline_ibuf (s : State) (b : Bool) : (s.setPline b).ibuf = s.ibuf := rfl
@[simp] theorem State.setPline_fbuf (s : State) (b : Bool) : (s.setPline b).fbuf = s.fbuf := rfl
@[simp] theorem State.setPline_obuf (s : State) (b : Bool) : (s.setPline b).obuf = s.obuf := rfl
@[simp] theorem State.setPline_params (s : State) (b : Bool) : (s.setPline b).params = s.params := rfl
@[simp] theorem State.setPline_pending (s : State) (b : Bool) : (s.setPline b).pending = s.pending := rfl
@[simp] theorem State.setPline_readOut (s : State) (b : Bool) : (s.setPline b).readOut = s.readOut := rfl

end Sys2Proof.Machine
end

