-- ==== Sys2Proof/Laws/Bits.lean ====
section
/-! SUPPORT. The fields of PSR and FSR after each field write. -/

namespace Sys2Proof.Machine

theorem setBit_getLsbD_self : ∀ (v : Byte) (b : Bool) (i : Fin 8), (setBit v i b).getLsbD i = b := by
  decide +kernel

theorem setBit_getLsbD_other :
    ∀ (v : Byte) (b : Bool) (i j : Fin 8), i ≠ j → (setBit v i b).getLsbD j = v.getLsbD j := by
  decide +kernel

theorem setBit_low : ∀ (v : Byte) (b : Bool) (i : Fin 8), 2 ≤ i.val →
    (setBit v i b).extractLsb' 0 2 = v.extractLsb' 0 2 := by
  decide +kernel

theorem setLowBits_low : ∀ (v : Byte) (x : BitVec 2), (setLowBits v x).extractLsb' 0 2 = x := by
  decide +kernel

theorem setLowBits_getLsbD : ∀ (v : Byte) (x : BitVec 2) (i : Fin 8), 2 ≤ i.val →
    (setLowBits v x).getLsbD i = v.getLsbD i := by
  decide +kernel

/-! Each PSR field after each PSR field write. -/

@[simp] theorem State.setPstate_pstate (s : State) (x : PState) : (s.setPstate x).pstate = x.code :=
  setLowBits_low _ _
@[simp] theorem State.setPstate_psReq (s : State) (x : PState) : (s.setPstate x).psReq = s.psReq :=
  setLowBits_getLsbD _ _ 2 (by decide)
@[simp] theorem State.setPstate_ready (s : State) (x : PState) : (s.setPstate x).ready = s.ready :=
  setLowBits_getLsbD _ _ 3 (by decide)
@[simp] theorem State.setPstate_xact (s : State) (x : PState) : (s.setPstate x).xact = s.xact :=
  setLowBits_getLsbD _ _ 4 (by decide)
@[simp] theorem State.setPstate_xresp (s : State) (x : PState) : (s.setPstate x).xresp = s.xresp :=
  setLowBits_getLsbD _ _ 5 (by decide)
@[simp] theorem State.setPstate_xinit (s : State) (x : PState) : (s.setPstate x).xinit = s.xinit :=
  setLowBits_getLsbD _ _ 6 (by decide)
@[simp] theorem State.setPstate_pline (s : State) (x : PState) : (s.setPstate x).pline = s.pline :=
  setLowBits_getLsbD _ _ 7 (by decide)
@[simp] theorem State.setPsReq_pstate (s : State) (b : Bool) : (s.setPsReq b).pstate = s.pstate :=
  setBit_low _ _ 2 (by decide)
@[simp] theorem State.setPsReq_psReq (s : State) (b : Bool) : (s.setPsReq b).psReq = b :=
  setBit_getLsbD_self _ _ 2
@[simp] theorem State.setPsReq_ready (s : State) (b : Bool) : (s.setPsReq b).ready = s.ready :=
  setBit_getLsbD_other _ _ 2 3 (by decide)
@[simp] theorem State.setPsReq_xact (s : State) (b : Bool) : (s.setPsReq b).xact = s.xact :=
  setBit_getLsbD_other _ _ 2 4 (by decide)
@[simp] theorem State.setPsReq_xresp (s : State) (b : Bool) : (s.setPsReq b).xresp = s.xresp :=
  setBit_getLsbD_other _ _ 2 5 (by decide)
@[simp] theorem State.setPsReq_xinit (s : State) (b : Bool) : (s.setPsReq b).xinit = s.xinit :=
  setBit_getLsbD_other _ _ 2 6 (by decide)
@[simp] theorem State.setPsReq_pline (s : State) (b : Bool) : (s.setPsReq b).pline = s.pline :=
  setBit_getLsbD_other _ _ 2 7 (by decide)
@[simp] theorem State.setReady_pstate (s : State) (b : Bool) : (s.setReady b).pstate = s.pstate :=
  setBit_low _ _ 3 (by decide)
@[simp] theorem State.setReady_psReq (s : State) (b : Bool) : (s.setReady b).psReq = s.psReq :=
  setBit_getLsbD_other _ _ 3 2 (by decide)
@[simp] theorem State.setReady_ready (s : State) (b : Bool) : (s.setReady b).ready = b :=
  setBit_getLsbD_self _ _ 3
@[simp] theorem State.setReady_xact (s : State) (b : Bool) : (s.setReady b).xact = s.xact :=
  setBit_getLsbD_other _ _ 3 4 (by decide)
@[simp] theorem State.setReady_xresp (s : State) (b : Bool) : (s.setReady b).xresp = s.xresp :=
  setBit_getLsbD_other _ _ 3 5 (by decide)
@[simp] theorem State.setReady_xinit (s : State) (b : Bool) : (s.setReady b).xinit = s.xinit :=
  setBit_getLsbD_other _ _ 3 6 (by decide)
@[simp] theorem State.setReady_pline (s : State) (b : Bool) : (s.setReady b).pline = s.pline :=
  setBit_getLsbD_other _ _ 3 7 (by decide)
@[simp] theorem State.setXact_pstate (s : State) (b : Bool) : (s.setXact b).pstate = s.pstate :=
  setBit_low _ _ 4 (by decide)
@[simp] theorem State.setXact_psReq (s : State) (b : Bool) : (s.setXact b).psReq = s.psReq :=
  setBit_getLsbD_other _ _ 4 2 (by decide)
@[simp] theorem State.setXact_ready (s : State) (b : Bool) : (s.setXact b).ready = s.ready :=
  setBit_getLsbD_other _ _ 4 3 (by decide)
@[simp] theorem State.setXact_xact (s : State) (b : Bool) : (s.setXact b).xact = b :=
  setBit_getLsbD_self _ _ 4
@[simp] theorem State.setXact_xresp (s : State) (b : Bool) : (s.setXact b).xresp = s.xresp :=
  setBit_getLsbD_other _ _ 4 5 (by decide)
@[simp] theorem State.setXact_xinit (s : State) (b : Bool) : (s.setXact b).xinit = s.xinit :=
  setBit_getLsbD_other _ _ 4 6 (by decide)
@[simp] theorem State.setXact_pline (s : State) (b : Bool) : (s.setXact b).pline = s.pline :=
  setBit_getLsbD_other _ _ 4 7 (by decide)
@[simp] theorem State.setXresp_pstate (s : State) (b : Bool) : (s.setXresp b).pstate = s.pstate :=
  setBit_low _ _ 5 (by decide)
@[simp] theorem State.setXresp_psReq (s : State) (b : Bool) : (s.setXresp b).psReq = s.psReq :=
  setBit_getLsbD_other _ _ 5 2 (by decide)
@[simp] theorem State.setXresp_ready (s : State) (b : Bool) : (s.setXresp b).ready = s.ready :=
  setBit_getLsbD_other _ _ 5 3 (by decide)
@[simp] theorem State.setXresp_xact (s : State) (b : Bool) : (s.setXresp b).xact = s.xact :=
  setBit_getLsbD_other _ _ 5 4 (by decide)
@[simp] theorem State.setXresp_xresp (s : State) (b : Bool) : (s.setXresp b).xresp = b :=
  setBit_getLsbD_self _ _ 5
@[simp] theorem State.setXresp_xinit (s : State) (b : Bool) : (s.setXresp b).xinit = s.xinit :=
  setBit_getLsbD_other _ _ 5 6 (by decide)
@[simp] theorem State.setXresp_pline (s : State) (b : Bool) : (s.setXresp b).pline = s.pline :=
  setBit_getLsbD_other _ _ 5 7 (by decide)
@[simp] theorem State.setXinit_pstate (s : State) (b : Bool) : (s.setXinit b).pstate = s.pstate :=
  setBit_low _ _ 6 (by decide)
@[simp] theorem State.setXinit_psReq (s : State) (b : Bool) : (s.setXinit b).psReq = s.psReq :=
  setBit_getLsbD_other _ _ 6 2 (by decide)
@[simp] theorem State.setXinit_ready (s : State) (b : Bool) : (s.setXinit b).ready = s.ready :=
  setBit_getLsbD_other _ _ 6 3 (by decide)
@[simp] theorem State.setXinit_xact (s : State) (b : Bool) : (s.setXinit b).xact = s.xact :=
  setBit_getLsbD_other _ _ 6 4 (by decide)
@[simp] theorem State.setXinit_xresp (s : State) (b : Bool) : (s.setXinit b).xresp = s.xresp :=
  setBit_getLsbD_other _ _ 6 5 (by decide)
@[simp] theorem State.setXinit_xinit (s : State) (b : Bool) : (s.setXinit b).xinit = b :=
  setBit_getLsbD_self _ _ 6
@[simp] theorem State.setXinit_pline (s : State) (b : Bool) : (s.setXinit b).pline = s.pline :=
  setBit_getLsbD_other _ _ 6 7 (by decide)
@[simp] theorem State.setPline_pstate (s : State) (b : Bool) : (s.setPline b).pstate = s.pstate :=
  setBit_low _ _ 7 (by decide)
@[simp] theorem State.setPline_psReq (s : State) (b : Bool) : (s.setPline b).psReq = s.psReq :=
  setBit_getLsbD_other _ _ 7 2 (by decide)
@[simp] theorem State.setPline_ready (s : State) (b : Bool) : (s.setPline b).ready = s.ready :=
  setBit_getLsbD_other _ _ 7 3 (by decide)
@[simp] theorem State.setPline_xact (s : State) (b : Bool) : (s.setPline b).xact = s.xact :=
  setBit_getLsbD_other _ _ 7 4 (by decide)
@[simp] theorem State.setPline_xresp (s : State) (b : Bool) : (s.setPline b).xresp = s.xresp :=
  setBit_getLsbD_other _ _ 7 5 (by decide)
@[simp] theorem State.setPline_xinit (s : State) (b : Bool) : (s.setPline b).xinit = s.xinit :=
  setBit_getLsbD_other _ _ 7 6 (by decide)
@[simp] theorem State.setPline_pline (s : State) (b : Bool) : (s.setPline b).pline = b :=
  setBit_getLsbD_self _ _ 7

/-! Updates that do not write PSR keep every field of it. -/

@[simp] theorem State.complete_pstate (s : State) : (s.complete).pstate = s.pstate := rfl
@[simp] theorem State.complete_psReq (s : State) : (s.complete).psReq = s.psReq := rfl
@[simp] theorem State.complete_ready (s : State) : (s.complete).ready = s.ready := rfl
@[simp] theorem State.complete_xact (s : State) : (s.complete).xact = s.xact := rfl
@[simp] theorem State.complete_xresp (s : State) : (s.complete).xresp = s.xresp := rfl
@[simp] theorem State.complete_xinit (s : State) : (s.complete).xinit = s.xinit := rfl
@[simp] theorem State.complete_pline (s : State) : (s.complete).pline = s.pline := rfl
@[simp] theorem State.complete_hasPline (s : State) : (s.complete).hasPline = s.hasPline := rfl
@[simp] theorem State.complete_fvalid (s : State) : (s.complete).fvalid = s.fvalid := rfl
@[simp] theorem State.raise_pstate (s : State) (f : Family) (e : Err) : (s.raise f e).pstate = s.pstate := rfl
@[simp] theorem State.raise_psReq (s : State) (f : Family) (e : Err) : (s.raise f e).psReq = s.psReq := rfl
@[simp] theorem State.raise_ready (s : State) (f : Family) (e : Err) : (s.raise f e).ready = s.ready := rfl
@[simp] theorem State.raise_xact (s : State) (f : Family) (e : Err) : (s.raise f e).xact = s.xact := rfl
@[simp] theorem State.raise_xresp (s : State) (f : Family) (e : Err) : (s.raise f e).xresp = s.xresp := rfl
@[simp] theorem State.raise_xinit (s : State) (f : Family) (e : Err) : (s.raise f e).xinit = s.xinit := rfl
@[simp] theorem State.raise_pline (s : State) (f : Family) (e : Err) : (s.raise f e).pline = s.pline := rfl
@[simp] theorem State.raise_hasPline (s : State) (f : Family) (e : Err) : (s.raise f e).hasPline = s.hasPline := rfl
@[simp] theorem State.raise_fvalid (s : State) (f : Family) (e : Err) : (s.raise f e).fvalid = s.fvalid := rfl
@[simp] theorem State.setResult_pstate (s : State) (v : Byte) : (s.setResult v).pstate = s.pstate := rfl
@[simp] theorem State.setResult_psReq (s : State) (v : Byte) : (s.setResult v).psReq = s.psReq := rfl
@[simp] theorem State.setResult_ready (s : State) (v : Byte) : (s.setResult v).ready = s.ready := rfl
@[simp] theorem State.setResult_xact (s : State) (v : Byte) : (s.setResult v).xact = s.xact := rfl
@[simp] theorem State.setResult_xresp (s : State) (v : Byte) : (s.setResult v).xresp = s.xresp := rfl
@[simp] theorem State.setResult_xinit (s : State) (v : Byte) : (s.setResult v).xinit = s.xinit := rfl
@[simp] theorem State.setResult_pline (s : State) (v : Byte) : (s.setResult v).pline = s.pline := rfl
@[simp] theorem State.setResult_hasPline (s : State) (v : Byte) : (s.setResult v).hasPline = s.hasPline := rfl
@[simp] theorem State.setResult_fvalid (s : State) (v : Byte) : (s.setResult v).fvalid = s.fvalid := rfl
@[simp] theorem State.setAction_pstate (s : State) (a : Action) : (s.setAction a).pstate = s.pstate := rfl
@[simp] theorem State.setAction_psReq (s : State) (a : Action) : (s.setAction a).psReq = s.psReq := rfl
@[simp] theorem State.setAction_ready (s : State) (a : Action) : (s.setAction a).ready = s.ready := rfl
@[simp] theorem State.setAction_xact (s : State) (a : Action) : (s.setAction a).xact = s.xact := rfl
@[simp] theorem State.setAction_xresp (s : State) (a : Action) : (s.setAction a).xresp = s.xresp := rfl
@[simp] theorem State.setAction_xinit (s : State) (a : Action) : (s.setAction a).xinit = s.xinit := rfl
@[simp] theorem State.setAction_pline (s : State) (a : Action) : (s.setAction a).pline = s.pline := rfl
@[simp] theorem State.setAction_hasPline (s : State) (a : Action) : (s.setAction a).hasPline = s.hasPline := rfl
@[simp] theorem State.setAction_fvalid (s : State) (a : Action) : (s.setAction a).fvalid = s.fvalid := rfl
@[simp] theorem State.holdFrame_pstate (s : State) (d : Byte) (p : Bytes) : (s.holdFrame d p).pstate = s.pstate := rfl
@[simp] theorem State.holdFrame_psReq (s : State) (d : Byte) (p : Bytes) : (s.holdFrame d p).psReq = s.psReq := rfl
@[simp] theorem State.holdFrame_ready (s : State) (d : Byte) (p : Bytes) : (s.holdFrame d p).ready = s.ready := rfl
@[simp] theorem State.holdFrame_xact (s : State) (d : Byte) (p : Bytes) : (s.holdFrame d p).xact = s.xact := rfl
@[simp] theorem State.holdFrame_xresp (s : State) (d : Byte) (p : Bytes) : (s.holdFrame d p).xresp = s.xresp := rfl
@[simp] theorem State.holdFrame_xinit (s : State) (d : Byte) (p : Bytes) : (s.holdFrame d p).xinit = s.xinit := rfl
@[simp] theorem State.holdFrame_pline (s : State) (d : Byte) (p : Bytes) : (s.holdFrame d p).pline = s.pline := rfl
@[simp] theorem State.holdFrame_hasPline (s : State) (d : Byte) (p : Bytes) : (s.holdFrame d p).hasPline = s.hasPline := rfl
@[simp] theorem State.putOutput_pstate (s : State) (b : Bytes) : (s.putOutput b).pstate = s.pstate := rfl
@[simp] theorem State.putOutput_psReq (s : State) (b : Bytes) : (s.putOutput b).psReq = s.psReq := rfl
@[simp] theorem State.putOutput_ready (s : State) (b : Bytes) : (s.putOutput b).ready = s.ready := rfl
@[simp] theorem State.putOutput_xact (s : State) (b : Bytes) : (s.putOutput b).xact = s.xact := rfl
@[simp] theorem State.putOutput_xresp (s : State) (b : Bytes) : (s.putOutput b).xresp = s.xresp := rfl
@[simp] theorem State.putOutput_xinit (s : State) (b : Bytes) : (s.putOutput b).xinit = s.xinit := rfl
@[simp] theorem State.putOutput_pline (s : State) (b : Bytes) : (s.putOutput b).pline = s.pline := rfl
@[simp] theorem State.putOutput_hasPline (s : State) (b : Bytes) : (s.putOutput b).hasPline = s.hasPline := rfl
@[simp] theorem State.putOutput_fvalid (s : State) (b : Bytes) : (s.putOutput b).fvalid = s.fvalid := rfl
@[simp] theorem State.holdFrame_fvalid (s : State) (d : Byte) (p : Bytes) : (s.holdFrame d p).fvalid = true :=
  setBit_getLsbD_self _ _ 0
@[simp] theorem State.setPstate_fvalid (s : State) (x : PState) : (s.setPstate x).fvalid = s.fvalid := rfl
@[simp] theorem State.setPstate_hasPline (s : State) (x : PState) : (s.setPstate x).hasPline = s.hasPline := rfl
@[simp] theorem State.setPsReq_fvalid (s : State) (x : Bool) : (s.setPsReq x).fvalid = s.fvalid := rfl
@[simp] theorem State.setPsReq_hasPline (s : State) (x : Bool) : (s.setPsReq x).hasPline = s.hasPline := rfl
@[simp] theorem State.setReady_fvalid (s : State) (x : Bool) : (s.setReady x).fvalid = s.fvalid := rfl
@[simp] theorem State.setReady_hasPline (s : State) (x : Bool) : (s.setReady x).hasPline = s.hasPline := rfl
@[simp] theorem State.setXact_fvalid (s : State) (x : Bool) : (s.setXact x).fvalid = s.fvalid := rfl
@[simp] theorem State.setXact_hasPline (s : State) (x : Bool) : (s.setXact x).hasPline = s.hasPline := rfl
@[simp] theorem State.setXresp_fvalid (s : State) (x : Bool) : (s.setXresp x).fvalid = s.fvalid := rfl
@[simp] theorem State.setXresp_hasPline (s : State) (x : Bool) : (s.setXresp x).hasPline = s.hasPline := rfl
@[simp] theorem State.setXinit_fvalid (s : State) (x : Bool) : (s.setXinit x).fvalid = s.fvalid := rfl
@[simp] theorem State.setXinit_hasPline (s : State) (x : Bool) : (s.setXinit x).hasPline = s.hasPline := rfl
@[simp] theorem State.setPline_fvalid (s : State) (x : Bool) : (s.setPline x).fvalid = s.fvalid := rfl
@[simp] theorem State.setPline_hasPline (s : State) (x : Bool) : (s.setPline x).hasPline = s.hasPline := rfl

end Sys2Proof.Machine
end

