-- ==== Sys2Proof/Laws/Frame.lean ====
section
/-! SUPPORT. Laws of the checksums and of the wire frame. -/

namespace Sys2Proof.Machine

@[simp] theorem sum8_nil : sum8 [] = 0 := rfl

@[simp] theorem sum8_cons (v : Byte) (b : Bytes) : sum8 (v :: b) = v + sum8 b := rfl

@[simp] theorem sum8_append (b c : Bytes) : sum8 (b ++ c) = sum8 b + sum8 c := by
  induction b with
  | nil => simp
  | cons v b ih => simp [ih, BitVec.add_assoc]

/-- The checksum does not depend on the order of the bytes (R82). -/
theorem sum8_perm {b c : Bytes} (h : b.Perm c) : sum8 b = sum8 c := by
  induction h with
  | nil => rfl
  | cons v _ ih => simp [ih]
  | swap v w b => simp only [sum8_cons, ← BitVec.add_assoc, BitVec.add_comm v w]
  | trans _ _ h1 h2 => exact h1.trans h2

/-- Changing one byte changes the sum. -/
theorem sum8_set_ne {b : Bytes} {i : Nat} (hi : i < b.length) {v : Byte} (hv : v ≠ b[i]) :
    sum8 (b.set i v) ≠ sum8 b := by
  induction b generalizing i with
  | nil => simp at hi
  | cons w b ih =>
    cases i with
    | zero => simpa [BitVec.add_left_inj] using hv
    | succ i =>
      simp only [List.set_cons_succ, sum8_cons, ne_eq, BitVec.add_right_inj]
      exact ih (by simpa using hi) (by simpa using hv)

/-- The model's sum is R8's sum modulo 256. -/
theorem sum8_toNat (b : Bytes) : (sum8 b).toNat = sumMod256 b := by
  induction b with
  | nil => rfl
  | cons v b ih => simp [BitVec.toNat_add, ih, sumMod256, Nat.add_mod]

/-- The model's negation is R8's. -/
theorem neg8_eq (v : Byte) : neg8 v = negMod256 v.toNat := by
  apply BitVec.eq_of_toNat_eq
  simp [neg8, negMod256, BitVec.toNat_neg]

theorem neg8_sum8 (b : Bytes) : neg8 (sum8 b) = negMod256 (sumMod256 b) := by
  rw [neg8_eq, sum8_toNat]

@[simp] theorem add_neg8 (v : Byte) : v + neg8 v = 0 := by simp [neg8]

/-- The frame the model builds is R60's, field by field. -/
theorem frameBytes_eq_wireFrame (dir : Byte) (p : Bytes) : frameBytes dir p = wireFrame dir p := by
  simp [frameBytes, wireFrame, startMarker, endMarker, neg8_eq, sum8_toNat, -sum8_cons]

@[simp] theorem frameBytes_length (dir : Byte) (p : Bytes) :
    (frameBytes dir p).length = p.length + 8 := by
  simp [frameBytes, startMarker]

@[simp] theorem wireFrame_length (dir : Byte) (p : Bytes) :
    (wireFrame dir p).length = p.length + 8 := by
  simp [wireFrame]

@[simp] theorem slice_length (b : Bytes) (i j : Nat) :
    (slice b i j).length = min (j + 1 - i) (b.length - i) := by
  simp [slice]

theorem byteAt_eq {b : Bytes} {i : Nat} (h : i < b.length) : byteAt b i = b[i] := by
  simp [byteAt, h]

/-- A sequence splits around the data part of a frame of length byte `l`. -/
theorem slice_split {b : Bytes} {l : Nat} (hl : 1 ≤ l) (hn : l + 7 ≤ b.length) :
    slice b 5 (l + 5) = byteAt b 5 :: (slice b 6 (l + 4) ++ [byteAt b (l + 5)]) := by
  apply List.ext_getElem?
  intro k
  simp only [slice, byteAt]
  cases k with
  | zero => simp [List.getElem?_drop, List.getD_eq_getElem?_getD]; grind
  | succ k =>
    simp only [List.getElem?_take, List.getElem?_drop, List.getElem?_cons_succ, List.getElem?_append,
      List.length_take, List.length_drop, List.getD_eq_getElem?_getD]
    grind

end Sys2Proof.Machine
end

