-- ==== Sys2Proof/Laws/Memory.lean ====
section
/-! SUPPORT. Laws of the buffers: read after write, ranged access, and the canonical form. -/

namespace Sys2Proof.Machine

theorem Memory.read_write (m : Memory) (i j : Nat) (v : Byte) :
    Memory.read (Memory.write m i v) j = if j = i then some v else Memory.read m j := by
  induction m with
  | nil => simp only [Memory.write, Memory.read]; grind
  | cons c m ih =>
    obtain ⟨a, w⟩ := c
    simp only [Memory.write]
    split_ifs with h1 h2 <;> simp only [Memory.read] <;> grind

theorem Memory.read_writeRange (m : Memory) (i : Nat) (b : Bytes) (k : Nat) :
    Memory.read (Memory.writeRange m i b) k
      = if i ≤ k ∧ k < i + b.length then b[k - i]? else Memory.read m k := by
  induction b generalizing m i with
  | nil => simp only [Memory.writeRange, List.length_nil]; grind
  | cons v b ih =>
    simp only [Memory.writeRange, ih, Memory.read_write, List.length_cons]
    grind

/-- A ranged write from index 0 stores exactly its bytes. -/
theorem Memory.writeRange_stored (m : Memory) (b : Bytes) :
    StoredFromZero m (Memory.writeRange m 0 b) b := by
  intro k
  simp [Memory.read_writeRange]

theorem Memory.risesFrom_mono {lo lo' : Nat} (h : lo ≤ lo') (m : Memory)
    (hm : Memory.risesFrom lo' m = true) : Memory.risesFrom lo m = true := by
  cases m with
  | nil => rfl
  | cons c m =>
    obtain ⟨a, w⟩ := c
    simp only [Memory.risesFrom, Bool.and_eq_true, decide_eq_true_eq] at *
    exact ⟨by omega, hm.2⟩

theorem Memory.risesFrom_write (m : Memory) (lo i : Nat) (v : Byte) (hi : lo ≤ i)
    (hm : Memory.risesFrom lo m = true) : Memory.risesFrom lo (Memory.write m i v) = true := by
  induction m generalizing lo with
  | nil => simpa [Memory.write, Memory.risesFrom] using hi
  | cons c m ih =>
    obtain ⟨a, w⟩ := c
    simp only [Memory.risesFrom, Bool.and_eq_true, decide_eq_true_eq] at hm
    simp only [Memory.write]
    split_ifs with h1 h2
    · simp [Memory.risesFrom, hm.2]; omega
    · subst h2; simp [Memory.risesFrom, hm]
    · simp only [Memory.risesFrom, Bool.and_eq_true, decide_eq_true_eq]
      exact ⟨hm.1, ih (a + 1) (by omega) hm.2⟩

theorem Memory.all_write (p : Host.Cell → Bool) (m : Memory) (i : Nat) (v : Byte)
    (hv : p (i, v) = true) (hm : m.all p = true) : (Memory.write m i v).all p = true := by
  induction m with
  | nil => simpa [Memory.write] using hv
  | cons c m ih =>
    obtain ⟨a, w⟩ := c
    simp only [List.all_cons, Bool.and_eq_true] at hm
    simp only [Memory.write]
    split_ifs <;> simp_all

/-- A write inside the space keeps the canonical form. -/
theorem Memory.wf_write {size i : Nat} {m : Memory} (v : Byte) (hi : i < size)
    (hm : Memory.wf size m = true) : Memory.wf size (Memory.write m i v) = true := by
  simp only [Memory.wf, Bool.and_eq_true] at *
  exact ⟨Memory.risesFrom_write m 0 i v (Nat.zero_le _) hm.1,
    Memory.all_write _ m i v (by simpa using hi) hm.2⟩

/-- A ranged write inside the space keeps the canonical form. -/
theorem Memory.wf_writeRange {size i : Nat} {m : Memory} {b : Bytes} (hi : i + b.length ≤ size)
    (hm : Memory.wf size m = true) : Memory.wf size (Memory.writeRange m i b) = true := by
  induction b generalizing m i with
  | nil => simpa [Memory.writeRange] using hm
  | cons v b ih =>
    simp only [List.length_cons] at hi
    exact ih (by omega) (Memory.wf_write v (by omega) hm)

/-- In a canonical space only indices below its size have a value. -/
theorem Memory.read_lt_size {size i : Nat} {m : Memory} {v : Byte} (hm : Memory.wf size m = true)
    (hr : Memory.read m i = some v) : i < size := by
  simp only [Memory.wf, Bool.and_eq_true] at hm
  have h := hm.2
  clear hm
  induction m with
  | nil => simp [Memory.read] at hr
  | cons c m ih =>
    obtain ⟨a, w⟩ := c
    simp only [List.all_cons, Bool.and_eq_true, decide_eq_true_eq] at h
    simp only [Memory.read] at hr
    split_ifs at hr with hai
    · omega
    · exact ih hr h.2

/-- Everything one byte read can answer. -/
theorem State.bufRead_eq (s : State) (S : Space) (i : Nat) :
    s.bufRead S i = if S.size ≤ i then .error (.indexOutOfRange S i)
      else match Memory.read (s.space S) i with
        | some v => .ok v
        | none => .error (.unwrittenRead S i) := by
  simp only [State.bufRead]
  by_cases h : i < S.size
  · rw [if_pos h, if_neg (by omega)] <;> rfl
  · rw [if_neg h, if_pos (by omega)]

theorem State.bufRead_ok {s : State} {S : Space} {i : Nat} {v : Byte} :
    s.bufRead S i = .ok v ↔ i < S.size ∧ Memory.read (s.space S) i = some v := by
  simp only [State.bufRead]
  split_ifs with h
  · cases Memory.read (s.space S) i <;> simp [h]
  · simp [h]

/-- A ranged read succeeds exactly when every byte of the range is in range and written. -/
theorem State.memRead_ok {s : State} {S : Space} {i n : Nat} {b : Bytes} :
    s.memRead S i n = .ok b ↔
      b.length = n ∧ ∀ k, k < n → i + k < S.size ∧ Memory.read (s.space S) (i + k) = b[k]? := by
  induction n generalizing i b with
  | zero =>
    simp only [State.memRead, Except.ok.injEq]
    constructor
    · rintro rfl; simp
    · rintro ⟨h, -⟩; exact (List.length_eq_zero_iff.mp h).symm
  | succ n ih =>
    simp only [State.memRead]
    constructor
    · intro h
      cases hb : s.bufRead S i with
      | error f => simp [hb] at h
      | ok v =>
        cases hm : s.memRead S (i + 1) n with
        | error f => simp [hb, hm] at h
        | ok b' =>
          simp only [hb, hm, Except.ok.injEq] at h
          subst h
          obtain ⟨hl, hr⟩ := ih.mp hm
          refine ⟨by simp [hl], fun k hk => ?_⟩
          cases k with
          | zero => simpa using State.bufRead_ok.mp hb
          | succ k =>
            have := hr k (by omega)
            rw [show i + (k + 1) = i + 1 + k by omega]
            simpa using this
    · rintro ⟨hl, hr⟩
      cases b with
      | nil => simp at hl
      | cons v b =>
        have h0 := hr 0 (by omega)
        have hb : s.bufRead S i = .ok v := State.bufRead_ok.mpr (by simpa using h0)
        have hm : s.memRead S (i + 1) n = .ok b := by
          refine ih.mpr ⟨by simpa using hl, fun k hk => ?_⟩
          have := hr (k + 1) (by omega)
          rw [show i + 1 + k = i + (k + 1) by omega]
          simpa using this
        simp [hb, hm]

/-- A ranged read faults at the lowest index of the range that it cannot read. -/
theorem State.memRead_error {s : State} {S : Space} {i n : Nat} {f : Fault} :
    s.memRead S i n = .error f ↔
      ∃ k, k < n ∧ s.bufRead S (i + k) = .error f ∧
        ∀ j, j < k → ∃ v, s.bufRead S (i + j) = .ok v := by
  induction n generalizing i with
  | zero => simp [State.memRead]
  | succ n ih =>
    simp only [State.memRead]
    cases hb : s.bufRead S i with
    | error g =>
      simp only [Except.error.injEq]
      constructor
      · rintro rfl; exact ⟨0, by omega, by simpa using hb, by simp⟩
      · rintro ⟨k, -, hk, hlow⟩
        cases k with
        | zero => rw [Nat.add_zero, hb] at hk; simpa using hk
        | succ k =>
          obtain ⟨v, hv⟩ := hlow 0 (by omega)
          rw [Nat.add_zero, hb] at hv
          simp at hv
    | ok v =>
      have key : (∃ k, k < n + 1 ∧ s.bufRead S (i + k) = .error f ∧
            ∀ j, j < k → ∃ v, s.bufRead S (i + j) = .ok v) ↔ s.memRead S (i + 1) n = .error f := by
        rw [ih]
        constructor
        · rintro ⟨k, hk, he, hlow⟩
          cases k with
          | zero => rw [Nat.add_zero, hb] at he; simp at he
          | succ k =>
            refine ⟨k, by omega, by rw [← he]; congr 1; omega, fun j hj => ?_⟩
            obtain ⟨v, hv⟩ := hlow (j + 1) (by omega)
            exact ⟨v, by rw [← hv]; congr 1; omega⟩
        · rintro ⟨k, hk, he, hlow⟩
          refine ⟨k + 1, by omega, by rw [← he]; congr 1; omega, fun j hj => ?_⟩
          cases j with
          | zero => exact ⟨v, by simpa using hb⟩
          | succ j =>
            obtain ⟨w, hw⟩ := hlow j (by omega)
            exact ⟨w, by rw [← hw]; congr 1; omega⟩
      rw [key]
      cases s.memRead S (i + 1) n <;> simp

/-- A ranged read answers bytes or one of the two read faults. -/
theorem State.bufRead_error_kind {s : State} {S : Space} {i : Nat} {f : Fault}
    (h : s.bufRead S i = .error f) : f = .unwrittenRead S i ∨ f = .indexOutOfRange S i := by
  simp only [State.bufRead] at h
  split_ifs at h
  · cases hr : Memory.read (s.space S) i <;> simp [hr] at h; exact .inl h.symm
  · simp at h; exact .inr h.symm

end Sys2Proof.Machine
end

