-- ==== Sys2Proof/Laws/Ops.lean ====
section
/-! SUPPORT. What each shared operation can answer, stated once for the callers to cite. -/

namespace Sys2Proof.Machine

/-- The frame of an error completion (60_exceptions.md R119). -/
theorem State.raise_eq (s : State) (f : Family) (e : Err) :
    s.raise f e = { s with
      status := e.status, info := e.info,
      action := if f = .power then Action.none.code else s.action } := rfl

/-- The frame of a completion. -/
theorem State.complete_eq (s : State) : s.complete = { s with status := 0x00, info := 0x00 } := rfl

/-- The frame of holding a frame. -/
theorem State.holdFrame_eq (s : State) (d : Byte) (p : Bytes) :
    s.holdFrame d p = { s with
      fbuf := Memory.writeRange s.fbuf 0 p, flen := BitVec.ofNat 8 p.length, fdir := d,
      fsr := setBit s.fsr 0 true } := rfl

/-- The frame of putting an output. -/
theorem State.putOutput_eq (s : State) (f : Bytes) :
    s.putOutput f = { s with
      obuf := Memory.writeRange s.obuf 0 f, olen := BitVec.ofNat 16 f.length } := rfl

theorem setBit_zero_true (v : Byte) : setBit v 0 true = v ||| 1 := by simp [setBit]

/-- The operand bytes are what the ranged read answers. -/
theorem OperandIs.memRead {s : State} {b : Bytes} (h : OperandIs s b) :
    s.memRead .ibuf 0 s.ilen.toNat = .ok b := by
  obtain ⟨hl, hb, hh⟩ := h
  refine State.memRead_ok.mpr ⟨hl.symm, fun k hk => ?_⟩
  rw [Nat.zero_add]
  exact ⟨by simp only [Space.size, bufBytes]; omega, hh k (by omega)⟩

theorem operandIs_of_memRead {s : State} {b : Bytes} (hn : s.ilen.toNat ≤ bufBytes)
    (h : s.memRead .ibuf 0 s.ilen.toNat = .ok b) : OperandIs s b := by
  obtain ⟨hl, hr⟩ := State.memRead_ok.mp h
  refine ⟨hl.symm, by simp only [bufBytes] at hn; omega, fun k hk => ?_⟩
  have := (hr k (by omega)).2
  simpa [State.space] using this

/-- `operands()` with readable operands goes on with them. -/
theorem withOperands_of_operandIs {s : State} {b : Bytes} (h : OperandIs s b) (k : Bytes → Answer) :
    withOperands s k = k b := by
  have := h.memRead
  obtain ⟨hl, hb, -⟩ := h
  simp only [withOperands, this]
  rw [if_neg (by simp only [bufBytes]; omega)]

/-- `operands()` with ILEN above the buffer fails. -/
theorem withOperands_of_range {s : State} (h : 262 < s.ilen.toNat) (k : Bytes → Answer) :
    withOperands s k = .next (s.raise .codec .operandIlenRange) := by
  exact if_pos h

/-- `operands()` faults at the lowest unwritten index. -/
theorem withOperands_of_unwritten {s : State} {n : Nat} (hl : s.ilen.toNat ≤ 262)
    (hn : n < s.ilen.toNat) (hr : Memory.read s.ibuf n = none)
    (hlow : ∀ j, j < n → (Memory.read s.ibuf j).isSome = true) (k : Bytes → Answer) :
    withOperands s k = .fault (.unwrittenRead .ibuf n) := by
  have : s.memRead .ibuf 0 s.ilen.toNat = .error (.unwrittenRead .ibuf n) := by
    refine State.memRead_error.mpr ⟨n, hn, ?_, fun j hj => ?_⟩
    · rw [Nat.zero_add, State.bufRead_eq, if_neg (by simp only [Space.size, bufBytes]; omega)]
      simp [State.space, hr]
    · obtain ⟨v, hv⟩ := Option.isSome_iff_exists.mp (hlow j hj)
      refine ⟨v, State.bufRead_ok.mpr ⟨by simp only [Space.size, bufBytes]; omega, ?_⟩⟩
      simpa [State.space] using hv
  simp only [withOperands, this]
  rw [if_neg (by simp only [bufBytes]; omega)]

/-- Everything `operands()` can do: fail on ILEN, fault on an unwritten byte of IBUF, or go on with the
operand bytes. -/
theorem withOperands_cases (s : State) (k : Bytes → Answer) :
    (262 < s.ilen.toNat ∧ withOperands s k = .next (s.raise .codec .operandIlenRange)) ∨
    (∃ n, s.ilen.toNat ≤ 262 ∧ n < s.ilen.toNat ∧ Memory.read s.ibuf n = none ∧
      (∀ j, j < n → (Memory.read s.ibuf j).isSome = true) ∧
      withOperands s k = .fault (.unwrittenRead .ibuf n)) ∨
    (∃ b, OperandIs s b ∧ withOperands s k = k b) := by
  by_cases h : 262 < s.ilen.toNat
  · exact .inl ⟨h, withOperands_of_range h k⟩
  · refine .inr ?_
    cases hm : s.memRead .ibuf 0 s.ilen.toNat with
    | ok b =>
      have hb := operandIs_of_memRead (by simp only [bufBytes]; omega) hm
      exact .inr ⟨b, hb, withOperands_of_operandIs hb k⟩
    | error f =>
      obtain ⟨n, hn, he, hlow⟩ := State.memRead_error.mp hm
      rw [Nat.zero_add, State.bufRead_eq,
        if_neg (by simp only [Space.size, bufBytes]; omega)] at he
      have hr : Memory.read s.ibuf n = none := by
        cases hv : Memory.read s.ibuf n with
        | none => rfl
        | some v => simp [State.space, hv] at he
      have hlow' : ∀ j, j < n → (Memory.read s.ibuf j).isSome = true := fun j hj => by
        obtain ⟨v, hv⟩ := hlow j hj
        rw [Nat.zero_add] at hv
        exact Option.isSome_iff_exists.mpr ⟨v, (State.bufRead_ok.mp hv).2⟩
      exact .inl ⟨n, by omega, hn, hr, hlow',
        withOperands_of_unwritten (by omega) hn hr hlow' k⟩

/-- A held frame is what the ranged read answers. -/
theorem withFrame_of_heldFrame {s : State} {p : Bytes} (h : HeldFrameIs s p) (k : Bytes → Answer) :
    withFrame s k = k p := by
  obtain ⟨hv, hl, hp, hh⟩ := h
  have : s.memRead .fbuf 0 s.flen.toNat = .ok p := by
    refine State.memRead_ok.mpr ⟨hl.symm, fun j hj => ?_⟩
    rw [Nat.zero_add]
    exact ⟨by simp only [Space.size, fbufBytes]; omega, hh j (by omega)⟩
  simp [withFrame, hv, this]

/-- Without a frame ENC's operand fails. -/
theorem withFrame_of_noFrame {s : State} (h : s.fvalid = false) (k : Bytes → Answer) :
    withFrame s k = .next (s.raise .codec .sequenceNoFrame) := by
  simp [withFrame, h]

/-- Everything ENC's operand step can do. -/
theorem withFrame_cases (s : State) (k : Bytes → Answer) :
    (s.fvalid = false ∧ withFrame s k = .next (s.raise .codec .sequenceNoFrame)) ∨
    (s.fvalid = true ∧ ∃ f, s.memRead .fbuf 0 s.flen.toNat = .error f ∧ withFrame s k = .fault f) ∨
    (∃ p, HeldFrameIs s p ∧ withFrame s k = k p) := by
  cases hv : s.fvalid with
  | false => exact .inl ⟨rfl, withFrame_of_noFrame hv k⟩
  | true =>
    refine .inr ?_
    cases hm : s.memRead .fbuf 0 s.flen.toNat with
    | error f => exact .inl ⟨rfl, f, rfl, by simp [withFrame, hv, hm]⟩
    | ok p =>
      obtain ⟨hl, hr⟩ := State.memRead_ok.mp hm
      have hp : p.length ≤ 254 := by
        rcases Nat.eq_zero_or_pos s.flen.toNat with h0 | h0
        · omega
        · have := (hr (s.flen.toNat - 1) (by omega)).1
          simp only [Space.size, fbufBytes] at this
          omega
      refine .inr ⟨p, ⟨hv, hl.symm, hp, fun j hj => ?_⟩, by simp [withFrame, hv, hm]⟩
      simpa [State.space] using (hr j (by omega)).2

/-- `classify` fails only with the decoder's own errors. -/
theorem classify_fail_kind {b : Bytes} {e : Err} (h : classify b = .fail e) :
    e = .malformedShort ∨ e = .malformedStart ∨ e = .checksumLcs ∨ e = .malformedZeroLen ∨
    e = .malformedTruncated ∨ e = .checksumDcs ∨ e = .malformedPostamble := by
  simp only [classify, classifyData] at h
  split_ifs at h <;> simp_all

/-- A classified data frame has a payload that FBUF can hold, and enough bytes behind it. -/
theorem classify_data_length {b : Bytes} {d : Byte} {p : Bytes} (h : classify b = .data d p) :
    p.length ≤ 254 ∧ p.length + 8 ≤ b.length := by
  simp only [classify, classifyData] at h
  split_ifs at h with h1 h2 h3 h4 h5 h6 h7 h8 h9
  simp only [Classified.data.injEq] at h
  obtain ⟨-, rfl⟩ := h
  have := (byteAt b 3).isLt
  have h0 : (byteAt b 3).toNat ≠ 0 := fun h0 => h6 (by simpa using BitVec.eq_of_toNat_eq (y := 0#8) h0)
  simp only [slice_length]
  omega

/-- Everything DEC does after `classify`. -/
theorem acceptFrame_cases (exp : Expect) (s : State) (c : Classified) :
    (∃ e, acceptFrame exp s c = s.raise .codec e) ∨
    (c = .ack ∧ exp = .ack ∧ acceptFrame exp s c = (s.setResult resultAck).complete) ∨
    (∃ d p, c = .data d p ∧ exp ≠ .ack ∧ d = exp.direction ∧
      acceptFrame exp s c = ((s.holdFrame d p).setResult resultData).complete) := by
  cases c with
  | fail e => exact .inl ⟨e, rfl⟩
  | nack => exact .inl ⟨_, rfl⟩
  | ack =>
    by_cases h : exp = .ack
    · exact .inr (.inl ⟨rfl, h, by simp [acceptFrame, h]⟩)
    · exact .inl ⟨_, by simp only [acceptFrame, if_neg h]; rfl⟩
  | data d p =>
    by_cases h : exp = .ack
    · exact .inl ⟨_, by simp only [acceptFrame, if_pos h]; rfl⟩
    · by_cases hd : d = exp.direction
      · exact .inr (.inr ⟨d, p, rfl, h, hd, by simp [acceptFrame, h, hd]⟩)
      · exact .inl ⟨_, by simp only [acceptFrame, if_neg h, ne_eq, hd, not_false_iff, if_pos]; rfl⟩

end Sys2Proof.Machine
end

