-- ==== Sys2Proof/Laws/Codec.lean ====
section
/-! SUPPORT. What each codec operation answers. -/

namespace Sys2Proof.Machine

/-- Everything CSUM can do. -/
theorem execCsum_cases {s t : State} (h : execCsum s = .next t) :
    t = s.raise .codec .operandIlenRange ∨
    ∃ b, OperandIs s b ∧ t = (s.setResult (neg8 (sum8 b))).complete := by
  unfold execCsum at h
  rcases withOperands_cases s _ with ⟨-, hw⟩ | ⟨n, -, -, -, -, hw⟩ | ⟨b, hb, hw⟩
  · rw [hw] at h
    simp only [Host.Outcome.next.injEq] at h
    exact .inl h.symm
  · rw [hw] at h; simp at h
  · rw [hw] at h
    simp only [Host.Outcome.next.injEq] at h
    exact .inr ⟨b, hb, h.symm⟩

/-- Everything ACKCHK can do. -/
theorem execAckchk_cases {s t : State} (h : execAckchk s = .next t) :
    t = s.raise .codec .operandIlenRange ∨
    ∃ b, OperandIs s b ∧ t = (s.setResult (sentinelResult b)).complete := by
  unfold execAckchk at h
  rcases withOperands_cases s _ with ⟨-, hw⟩ | ⟨n, -, -, -, -, hw⟩ | ⟨b, hb, hw⟩
  · rw [hw] at h
    simp only [Host.Outcome.next.injEq] at h
    exact .inl h.symm
  · rw [hw] at h; simp at h
  · rw [hw] at h
    simp only [Host.Outcome.next.injEq] at h
    exact .inr ⟨b, hb, h.symm⟩

/-- Everything a build can do: an error completion, or a frame within the ceiling held. -/
theorem buildFrame_cases {wrap : Bytes → Bytes} {s t : State} (h : buildFrame wrap s = .next t) :
    (∃ e, (e = .operandIlenRange ∨ e = .operandEmpty ∨ e = .operandTooLarge) ∧
      t = s.raise .codec e) ∨
    ∃ b, OperandIs s b ∧ b ≠ [] ∧ (wrap b).length ≤ s.params.maxPayload.val ∧
      t = (s.holdFrame dirH2d (wrap b)).complete := by
  unfold buildFrame at h
  rcases withOperands_cases s _ with ⟨-, hw⟩ | ⟨n, -, -, -, -, hw⟩ | ⟨b, hb, hw⟩
  · rw [hw] at h
    simp only [Host.Outcome.next.injEq] at h
    exact .inl ⟨_, .inl rfl, h.symm⟩
  · rw [hw] at h; simp at h
  · rw [hw] at h
    split_ifs at h with h1 h2 <;> simp only [Host.Outcome.next.injEq] at h
    · exact .inl ⟨_, .inr (.inl rfl), h.symm⟩
    · exact .inl ⟨_, .inr (.inr rfl), h.symm⟩
    · exact .inr ⟨b, hb, fun h0 => h1 (by simp [h0]), by omega, h.symm⟩

/-- Everything ENC can do: the error completion, or the encoded frame put. -/
theorem execEnc_cases {s t : State} (h : execEnc s = .next t) :
    (s.fvalid = false ∧ t = s.raise .codec .sequenceNoFrame) ∨
    ∃ p, HeldFrameIs s p ∧ t = (s.putOutput (frameBytes s.fdir p)).complete := by
  unfold execEnc at h
  rcases withFrame_cases s _ with ⟨hv, hw⟩ | ⟨-, f, -, hw⟩ | ⟨p, hp, hw⟩
  · rw [hw] at h
    simp only [Host.Outcome.next.injEq] at h
    exact .inl ⟨hv, h.symm⟩
  · rw [hw] at h; simp at h
  · rw [hw] at h
    simp only [Host.Outcome.next.injEq] at h
    exact .inr ⟨p, hp, h.symm⟩

/-- Everything DEC can do. -/
theorem decodeFrame_cases {exp : Expect} {s t : State} (h : decodeFrame exp s = .next t) :
    t = s.raise .codec .operandIlenRange ∨
    ∃ b, OperandIs s b ∧ t = acceptFrame exp s (classify b) := by
  unfold decodeFrame at h
  rcases withOperands_cases s _ with ⟨-, hw⟩ | ⟨n, -, -, -, -, hw⟩ | ⟨b, hb, hw⟩
  · rw [hw] at h
    simp only [Host.Outcome.next.injEq] at h
    exact .inl h.symm
  · rw [hw] at h; simp at h
  · rw [hw] at h
    simp only [Host.Outcome.next.injEq] at h
    exact .inr ⟨b, hb, h.symm⟩

end Sys2Proof.Machine
end

