-- ==== Sys2Proof/Laws/Decode.lean ====
section
/-! SUPPORT. The two fields of a request word: they make up the word, and as natural numbers they are its
remainder and quotient by 256. -/

namespace Sys2Proof

theorem flagsOf_append_opcOf (w : Word) : flagsOf w ++ opcOf w = w := by
  apply BitVec.eq_of_toNat_eq
  have := w.isLt
  simp only [flagsOf, opcOf, BitVec.toNat_append, BitVec.extractLsb'_toNat, Nat.shiftRight_zero]
  rw [← Nat.shiftLeft_add_eq_or_of_lt (by omega)]
  simp only [Nat.shiftRight_eq_div_pow, Nat.shiftLeft_eq]
  omega

theorem opcOf_toNat (w : Word) : (opcOf w).toNat = w.toNat % 256 := by
  simp [opcOf]

theorem flagsOf_toNat (w : Word) : (flagsOf w).toNat = w.toNat / 256 := by
  have := w.isLt
  simp only [flagsOf, BitVec.extractLsb'_toNat, Nat.shiftRight_eq_div_pow]
  omega

/-- Two words with the same fields are the same word. -/
theorem word_eq_of_fields {w x : Word} (ho : opcOf w = opcOf x) (hf : flagsOf w = flagsOf x) : w = x := by
  rw [← flagsOf_append_opcOf w, ← flagsOf_append_opcOf x, ho, hf]

end Sys2Proof
end

