-- ==== Sys2Proof/Laws/Power.lean ====
section
/-! SUPPORT. PSR as its seven fields, and what each power operation answers. -/

namespace Sys2Proof.Machine

/-- A byte is its fields. -/
theorem byte_eq_psrByte : ∀ v : Byte, v = psrByte (v.getLsbD 7) (v.getLsbD 6) (v.getLsbD 5)
    (v.getLsbD 4) (v.getLsbD 3) (v.getLsbD 2) (v.extractLsb' 0 2) := by
  decide +kernel

/-- PSR after a write of one field, the others kept. -/
theorem setBit_psrByte : ∀ (a b c d e f : Bool) (x : BitVec 2) (v : Bool),
    setBit (psrByte a b c d e f x) 2 v = psrByte a b c d e v x ∧
    setBit (psrByte a b c d e f x) 3 v = psrByte a b c d v f x ∧
    setBit (psrByte a b c d e f x) 4 v = psrByte a b c v e f x ∧
    setBit (psrByte a b c d e f x) 5 v = psrByte a b v d e f x ∧
    setBit (psrByte a b c d e f x) 6 v = psrByte a v c d e f x ∧
    setBit (psrByte a b c d e f x) 7 v = psrByte v b c d e f x := by
  decide +kernel

theorem setLowBits_psrByte : ∀ (a b c d e f : Bool) (x y : BitVec 2),
    setLowBits (psrByte a b c d e f x) y = psrByte a b c d e f y := by
  decide +kernel

/-- Two states whose PSR fields agree have the same PSR. -/
theorem State.psr_eq_psrByte (s : State) :
    s.psr = psrByte s.pline s.xinit s.xresp s.xact s.ready s.psReq s.pstate := byte_eq_psrByte s.psr

/-- The fields of a PSR written as `psrByte`. -/
theorem State.fields_of_psr {s : State} {a b c d e f : Bool} {x : BitVec 2}
    (h : s.psr = psrByte a b c d e f x) :
    s.pline = a ∧ s.xinit = b ∧ s.xresp = c ∧ s.xact = d ∧ s.ready = e ∧ s.psReq = f ∧ s.pstate = x := by
  simp only [State.pline, State.xinit, State.xresp, State.xact, State.ready, State.psReq, State.pstate, h]
  clear h
  revert a b c d e f x
  decide +kernel

/-- The power-down, field by field. -/
theorem powerDown_eq (s : State) : (powerDown s).complete = { s with
    psr := psrByte false s.xinit s.xresp s.xact false false PState.hardDown.code,
    action := Action.none.code, status := 0x00, info := 0x00 } := by
  ext1 <;> simp [powerDown, StatusCode.code]
  rw [State.psr_eq_psrByte s]
  simp only [setBit_psrByte, setLowBits_psrByte]

/-- The power-up from HARD_DOWN, field by field. -/
theorem powerUp_eq {s : State} (h : s.pstate = PState.hardDown.code) : (powerUp s).complete = { s with
    psr := psrByte true s.xinit s.xresp s.xact false false PState.active.code,
    action := Action.runInit.code, status := 0x00, info := 0x00 } := by
  rw [powerUp, if_pos h]
  ext1 <;> simp [StatusCode.code]
  rw [State.psr_eq_psrByte s]
  simp only [setBit_psrByte, setLowBits_psrByte]

/-- The power-up outside HARD_DOWN is a no-op. -/
theorem powerUp_eq_of_up {s : State} (h : s.pstate ≠ PState.hardDown.code) : (powerUp s).complete =
    { s with action := Action.none.code, status := 0x00, info := 0x00 } := by
  rw [powerUp, if_neg h]
  ext1 <;> simp [StatusCode.code]

/-- The enable, field by field. -/
theorem enable_eq (s : State) (en : Bool) :
    (((s.setPsReq en).setResult ((BitVec.ofBool s.psReq).setWidth 8)).setAction .none).complete = { s with
      psr := psrByte s.pline s.xinit s.xresp s.xact s.ready en s.pstate,
      result := (BitVec.ofBool s.psReq).setWidth 8,
      action := Action.none.code, status := 0x00, info := 0x00 } := by
  ext1 <;> simp [StatusCode.code]
  rw [State.psr_eq_psrByte s]
  simp only [setBit_psrByte]

/-- The opened exchange, field by field. -/
theorem openExchange_eq (s : State) (resp init : Bool) :
    ((((wakeIfAsleep s).setXact true).setXresp resp).setXinit init).complete = { s with
      psr := psrByte s.pline init resp true s.ready s.psReq
        (if s.pstate = PState.softSave.code then PState.active.code else s.pstate),
      action := if s.pstate = PState.softSave.code then Action.wake.code else Action.none.code,
      status := 0x00, info := 0x00 } := by
  unfold wakeIfAsleep
  split_ifs <;> ext1 <;> simp [StatusCode.code] <;> rw [State.psr_eq_psrByte s] <;>
    simp only [setBit_psrByte, setLowBits_psrByte]

/-- PS_POST's record of an initialization, as a value of READY. -/
theorem recordInit_eq (s : State) (ok : Bool) :
    recordInit ok s = s.setReady (if s.xinit = true then ok else s.ready) := by
  unfold recordInit
  split_ifs with h
  · rfl
  · ext1 <;> simp
    rw [State.psr_eq_psrByte s]
    simp only [setBit_psrByte]

/-- The closed exchange, field by field. -/
theorem closeExchange_eq (s : State) (ok stest : Bool) :
    (sleepIfEligible ok stest (recordInit ok (s.setXact false))).complete = { s with
      psr := psrByte s.pline s.xinit s.xresp false (if s.xinit = true then ok else s.ready) s.psReq
        (if eligible ok s.xresp stest = true ∧ s.psReq = true then PState.softSave.code else s.pstate),
      action := if eligible ok s.xresp stest = true ∧ s.psReq = true then Action.sleep.code
        else Action.none.code,
      status := 0x00, info := 0x00 } := by
  rw [recordInit_eq]
  simp only [sleepIfEligible, State.setReady_xresp, State.setReady_psReq, State.setXact_xresp,
    State.setXact_psReq, State.setXact_xinit, State.setXact_ready]
  split_ifs <;> ext1 <;> simp [StatusCode.code] <;> rw [State.psr_eq_psrByte s] <;>
    simp only [setBit_psrByte, setLowBits_psrByte]

/-- Every power operation completes. -/
theorem execPsHard_next (down : Bool) (s : State) : ∃ t, execPsHard down s = .next t := ⟨_, rfl⟩

theorem execPsEnable_next (en : Bool) (s : State) : ∃ t, execPsEnable en s = .next t := ⟨_, rfl⟩

theorem execPsPre_next (resp init : Bool) (s : State) : ∃ t, execPsPre resp init s = .next t := ⟨_, rfl⟩

theorem execPsPost_next (ok stest : Bool) (s : State) : ∃ t, execPsPost ok stest s = .next t := ⟨_, rfl⟩

/-- Everything PS_HARD can do: an error completion, the power-down, the power-up, or the no-op. -/
theorem execPsHard_cases {down : Bool} {s t : State} (h : execPsHard down s = .next t) :
    (s.hasPline = false ∧ t = s.raise .power .noHardPowerControl) ∨
    (s.hasPline = true ∧ s.xact = true ∧ t = s.raise .power .sequenceXactOpen) ∨
    (s.hasPline = true ∧ s.xact = false ∧ down = true ∧ t = (powerDown s).complete) ∨
    (s.hasPline = true ∧ s.xact = false ∧ down = false ∧ t = (powerUp s).complete) := by
  simp only [execPsHard, psHardError, Host.Outcome.next.injEq] at h
  cases hp : s.hasPline <;> cases hx : s.xact <;> cases down <;> simp_all

/-- Everything PS_ENABLE can do. -/
theorem execPsEnable_cases {en : Bool} {s t : State} (h : execPsEnable en s = .next t) :
    (s.pstate = PState.hardDown.code ∧ t = s.raise .power .poweredDown) ∨
    (s.pstate ≠ PState.hardDown.code ∧
      t = (((s.setPsReq en).setResult ((BitVec.ofBool s.psReq).setWidth 8)).setAction .none).complete) := by
  simp only [execPsEnable, psEnableError, Host.Outcome.next.injEq] at h
  split_ifs at h with hp <;> simp_all

/-- Everything PS_PRE can do: an error completion, or the opened exchange. -/
theorem execPsPre_cases {resp init : Bool} {s t : State} (h : execPsPre resp init s = .next t) :
    (∃ e, (e = .sequenceXactOpen ∨ e = .poweredDown ∨ e = .notReady) ∧
      psPreError init s = some e ∧ t = s.raise .power e) ∨
    (psPreError init s = none ∧ s.xact = false ∧ s.pstate ≠ PState.hardDown.code ∧
      t = ((((wakeIfAsleep s).setXact true).setXresp resp).setXinit init).complete) := by
  simp only [execPsPre, Host.Outcome.next.injEq] at h
  cases he : psPreError init s with
  | some e =>
    rw [he] at h
    refine .inl ⟨e, ?_, rfl, h.symm⟩
    simp only [psPreError] at he
    split_ifs at he <;> simp_all
  | none =>
    rw [he] at h
    simp only [psPreError] at he
    split_ifs at he with h1 h2 h3
    exact .inr ⟨rfl, by simpa using h1, h2, h.symm⟩

/-- Everything PS_POST can do: an error completion, or the closed exchange. -/
theorem execPsPost_cases {ok stest : Bool} {s t : State} (h : execPsPost ok stest s = .next t) :
    (s.xact = false ∧ t = s.raise .power .sequenceNoXact) ∨
    (s.xact = true ∧ t = (sleepIfEligible ok stest (recordInit ok (s.setXact false))).complete) := by
  simp only [execPsPost, psPostError, Host.Outcome.next.injEq] at h
  cases hx : s.xact <;> simp_all

end Sys2Proof.Machine
end

