-- ==== Sys2Proof/Laws/Exec.lean ====
section
/-! SUPPORT. What an operation that answers a next state has done, over all operations at once. -/

namespace Sys2Proof.Machine

/-- A build that completes: an error completion, or a frame held. -/
theorem buildFrame_next {wrap : Bytes → Bytes} {s t : State} (h : buildFrame wrap s = .next t) :
    (∃ e, (e = .operandIlenRange ∨ e = .operandEmpty ∨ e = .operandTooLarge) ∧
      t = s.raise .codec e) ∨
    ∃ d p r, p.length ≤ 254 ∧ (d = dirH2d ∨ d = dirD2h) ∧
      t = ((s.holdFrame d p).setResult r).complete := by
  have := s.params.maxPayload.isLt
  rcases buildFrame_cases h with ⟨e, he, rfl⟩ | ⟨b, h1, h2, h3, rfl⟩
  · exact .inl ⟨e, he, rfl⟩
  · exact .inr ⟨_, _, s.result, by omega, .inl rfl, rfl⟩

/-- DEC for a data frame that completes: an error completion, or a frame of that direction held. -/
theorem decodeFrame_data_next {exp : Expect} {s t : State} (hx : exp ≠ .ack)
    (h : decodeFrame exp s = .next t) :
    (∃ e, e ∈ raisedBy .decD2h ∧ t = s.raise .codec e) ∨
    ∃ d p r, p.length ≤ 254 ∧ (d = dirH2d ∨ d = dirD2h) ∧
      t = ((s.holdFrame d p).setResult r).complete := by
  rcases decodeFrame_cases h with rfl | ⟨b, hb, rfl⟩
  · exact .inl ⟨_, by simp [raisedBy], rfl⟩
  · cases hc : classify b with
    | fail e =>
      have := classify_fail_kind hc
      exact .inl ⟨e, by simp only [raisedBy]; grind, rfl⟩
    | ack => exact .inl ⟨.unexpectedSawAck, by simp [raisedBy], by simp [acceptFrame, hx]⟩
    | nack => exact .inl ⟨.unexpectedSawNack, by simp [raisedBy], rfl⟩
    | data d p =>
      by_cases hd : d = exp.direction
      · refine .inr ⟨d, p, resultData, (classify_data_length hc).1, ?_, by simp [acceptFrame, hx, hd]⟩
        subst hd
        cases exp <;> simp [Expect.direction]
      · exact .inl ⟨.unexpectedDir, by simp [raisedBy], by simp [acceptFrame, hx, hd]⟩

/-- DEC.ACK that completes: an error completion, or the ACK reported. -/
theorem decodeFrame_ack_next {s t : State} (h : decodeFrame .ack s = .next t) :
    (∃ e, e ∈ raisedBy .decAck ∧ t = s.raise .codec e) ∨ t = (s.setResult resultAck).complete := by
  rcases decodeFrame_cases h with rfl | ⟨b, hb, rfl⟩
  · exact .inl ⟨_, by simp [raisedBy], rfl⟩
  · cases hc : classify b with
    | fail e =>
      have := classify_fail_kind hc
      exact .inl ⟨e, by simp only [raisedBy]; grind, rfl⟩
    | ack => exact .inr rfl
    | nack => exact .inl ⟨.unexpectedSawNack, by simp [raisedBy], rfl⟩
    | data d p => exact .inl ⟨.unexpectedSawData, by simp [raisedBy], rfl⟩

/-- Everything a codec operation can do: an error completion of its own, RESULT alone, a frame held, or an
encoded frame put. -/
theorem exec_codec_cases {i : Instr} {s t : State} (hi : i.isCodec = true) (h : exec i s = .next t) :
    (∃ e, e ∈ raisedBy i ∧ t = s.raise .codec e) ∨
    ((i = .csum ∨ i = .ackchk ∨ i = .decAck) ∧ ∃ v, t = (s.setResult v).complete) ∨
    ((i = .mkcmd ∨ i = .mkdx ∨ i = .decD2h ∨ i = .decH2d) ∧
      ∃ d p r, p.length ≤ 254 ∧ (d = dirH2d ∨ d = dirD2h) ∧
        t = ((s.holdFrame d p).setResult r).complete) ∨
    (i = .enc ∧ ∃ p, HeldFrameIs s p ∧ t = (s.putOutput (frameBytes s.fdir p)).complete) := by
  cases i with
  | csum =>
    rcases execCsum_cases h with rfl | ⟨b, _, rfl⟩
    · exact .inl ⟨_, by simp [raisedBy], rfl⟩
    · exact .inr (.inl ⟨by simp, _, rfl⟩)
  | ackchk =>
    rcases execAckchk_cases h with rfl | ⟨b, _, rfl⟩
    · exact .inl ⟨_, by simp [raisedBy], rfl⟩
    · exact .inr (.inl ⟨by simp, _, rfl⟩)
  | mkcmd =>
    rcases buildFrame_next h with ⟨e, he, rfl⟩ | hh
    · exact .inl ⟨e, by simpa [raisedBy] using he, rfl⟩
    · exact .inr (.inr (.inl ⟨by simp, hh⟩))
  | mkdx =>
    rcases buildFrame_next h with ⟨e, he, rfl⟩ | hh
    · exact .inl ⟨e, by simpa [raisedBy] using he, rfl⟩
    · exact .inr (.inr (.inl ⟨by simp, hh⟩))
  | enc =>
    rcases execEnc_cases h with ⟨_, rfl⟩ | hh
    · exact .inl ⟨_, by simp [raisedBy], rfl⟩
    · exact .inr (.inr (.inr ⟨rfl, hh⟩))
  | decD2h =>
    rcases decodeFrame_data_next (by simp) h with hh | hh
    · exact .inl hh
    · exact .inr (.inr (.inl ⟨by simp, hh⟩))
  | decH2d =>
    rcases decodeFrame_data_next (by simp) h with hh | hh
    · exact .inl hh
    · exact .inr (.inr (.inl ⟨by simp, hh⟩))
  | decAck =>
    rcases decodeFrame_ack_next h with hh | hh
    · exact .inl hh
    · exact .inr (.inl ⟨by simp, _, hh⟩)
  | psHard down => simp [Instr.isCodec] at hi
  | psEnable en => simp [Instr.isCodec] at hi
  | psPre resp init => simp [Instr.isCodec] at hi
  | psPost ok stest => simp [Instr.isCodec] at hi

/-- Everything a power operation can do outside PSR: an error completion of its own, or a success that
writes PSR, ACTION and RESULT at most. -/
theorem exec_power_cases {i : Instr} {s t : State} (hi : i.isCodec = false) (h : exec i s = .next t) :
    (∃ e, e ∈ raisedBy i ∧ t = s.raise .power e) ∨
    ∃ p a r, t = { s with psr := p, action := a, result := r, status := 0x00, info := 0x00 } := by
  cases i with
  | psHard down =>
    rcases execPsHard_cases h with ⟨_, rfl⟩ | ⟨_, _, rfl⟩ | ⟨_, _, _, rfl⟩ | ⟨_, _, _, rfl⟩
    · exact .inl ⟨_, by simp [raisedBy], rfl⟩
    · exact .inl ⟨_, by simp [raisedBy], rfl⟩
    · rw [powerDown_eq]
      exact .inr ⟨_, _, _, rfl⟩
    · by_cases hd : s.pstate = PState.hardDown.code
      · rw [powerUp_eq hd]
        exact .inr ⟨_, _, _, rfl⟩
      · rw [powerUp_eq_of_up hd]
        exact .inr ⟨_, _, _, rfl⟩
  | psEnable en =>
    rcases execPsEnable_cases h with ⟨_, rfl⟩ | ⟨_, rfl⟩
    · exact .inl ⟨_, by simp [raisedBy], rfl⟩
    · rw [enable_eq]
      exact .inr ⟨_, _, _, rfl⟩
  | psPre resp init =>
    rcases execPsPre_cases h with ⟨e, he, _, rfl⟩ | ⟨_, _, _, rfl⟩
    · exact .inl ⟨_, by simpa [raisedBy] using he, rfl⟩
    · rw [openExchange_eq]
      exact .inr ⟨_, _, _, rfl⟩
  | psPost ok stest =>
    rcases execPsPost_cases h with ⟨_, rfl⟩ | ⟨_, rfl⟩
    · exact .inl ⟨_, by simp [raisedBy], rfl⟩
    · rw [closeExchange_eq]
      exact .inr ⟨_, _, _, rfl⟩
  | csum => simp [Instr.isCodec] at hi
  | mkcmd => simp [Instr.isCodec] at hi
  | mkdx => simp [Instr.isCodec] at hi
  | enc => simp [Instr.isCodec] at hi
  | ackchk => simp [Instr.isCodec] at hi
  | decD2h => simp [Instr.isCodec] at hi
  | decH2d => simp [Instr.isCodec] at hi
  | decAck => simp [Instr.isCodec] at hi

end Sys2Proof.Machine
end

