-- ==== Sys2Proof/Laws/PerInstr.lean ====
section
/-! SUPPORT. Statements about every operation as syntax, one lemma per constructor. -/

namespace Sys2Proof.Laws.OpcodeRow

/-- The `match` and `mask` columns of an operation's row of spec/opcode_table.json. -/
def row : Instr → Word × Word
  | .csum => (0x0001, 0xFFFF)
  | .mkcmd => (0x0002, 0xFFFF)
  | .mkdx => (0x0003, 0xFFFF)
  | .enc => (0x0004, 0xFFFF)
  | .ackchk => (0x0005, 0xFFFF)
  | .decD2h => (0x0006, 0xFFFF)
  | .decH2d => (0x0106, 0xFFFF)
  | .decAck => (0x0206, 0xFFFF)
  | .psHard _ => (0x0010, 0xFEFF)
  | .psEnable _ => (0x0011, 0xFEFF)
  | .psPre _ _ => (0x0012, 0xFCFF)
  | .psPost _ _ => (0x0013, 0xFCFF)

/-- An operation is well-formed, and its request word lies in its row of the opcode table. -/
def Statement (i : Instr) : Prop := i.wf = true ∧ encode i &&& (row i).2 = (row i).1

theorem csum : Statement .csum := by unfold Statement; decide
theorem mkcmd : Statement .mkcmd := by unfold Statement; decide
theorem mkdx : Statement .mkdx := by unfold Statement; decide
theorem enc : Statement .enc := by unfold Statement; decide
theorem ackchk : Statement .ackchk := by unfold Statement; decide
theorem decD2h : Statement .decD2h := by unfold Statement; decide
theorem decH2d : Statement .decH2d := by unfold Statement; decide
theorem decAck : Statement .decAck := by unfold Statement; decide
theorem psHard (down : Bool) : Statement (.psHard down) := by unfold Statement; revert down; decide
theorem psEnable (en : Bool) : Statement (.psEnable en) := by unfold Statement; revert en; decide
theorem psPre (resp init : Bool) : Statement (.psPre resp init) := by
  unfold Statement; revert resp init; decide
theorem psPost (ok stest : Bool) : Statement (.psPost ok stest) := by
  unfold Statement; revert ok stest; decide

end Sys2Proof.Laws.OpcodeRow
end

