-- ==== Sys2Proof/Laws/Step.lean ====
section
/-! SUPPORT. What one step of the machine can do. -/

namespace Sys2Proof.Machine

theorem step_of_nil {s : State} (h : s.pending = []) : step s = .next s := by simp [step, h]

theorem step_of_cons {s : State} {h : HostStep} {rest : List HostStep} (hp : s.pending = h :: rest) :
    step s = runHostStep h { s with pending := rest } := by simp [step, hp]

/-- Issuing a word: its operation, or the error completion of its cause. -/
theorem issue_cases (w : Word) (s : State) :
    (∃ i, decode w = .ok i ∧ issue w s = exec i s) ∨
    (∃ e, decode w = .error e ∧ issue w s = .next (s.raise .request (illegalErr e))) := by
  cases h : decode w with
  | ok i => exact .inl ⟨i, rfl, by simp [issue, h]⟩
  | error e => exact .inr ⟨e, rfl, by simp [issue, h]⟩

/-- Everything a host step that answers a next state has done. -/
theorem runHostStep_cases {h : HostStep} {s t : State} (ht : runHostStep h s = .next t) :
    (∃ n v, h = .regRead n ∧ t = { s with readOut := some v }) ∨
    (∃ w, h = .regWrite 0 w ∧ issue w s = .next t) ∨
    (∃ v, h = .regWrite 5 v ∧ t = { s with ilen := v }) ∨
    (∃ S i v, h = .bufRead S i ∧ Memory.read (s.space S) i = some v ∧
      t = { s with readOut := some (.byte v) }) ∨
    (∃ i v, h = .bufWrite .ibuf i v ∧ i < bufBytes ∧ t = { s with ibuf := Memory.write s.ibuf i v }) ∨
    (∃ p, h = .construct p ∧ t = reconstruct p s) := by
  cases h with
  | regRead n =>
    simp only [runHostStep, regRead] at ht
    split_ifs at ht
    cases hr : s.register n with
    | none => rw [hr] at ht; simp at ht
    | some v =>
      rw [hr] at ht
      simp only [Host.Outcome.next.injEq] at ht
      exact .inl ⟨n, v, rfl, ht.symm⟩
  | regWrite n v =>
    simp only [runHostStep, regWrite] at ht
    split_ifs at ht with h0 h5
    · subst h0; exact .inr (.inl ⟨v, rfl, ht⟩)
    · subst h5
      simp only [Host.Outcome.next.injEq] at ht
      exact .inr (.inr (.inl ⟨v, rfl, ht.symm⟩))
  | bufRead S i =>
    simp only [runHostStep, hostBufRead] at ht
    cases hb : s.bufRead S i with
    | error f => rw [hb] at ht; simp at ht
    | ok v =>
      rw [hb] at ht
      simp only [Host.Outcome.next.injEq] at ht
      exact .inr (.inr (.inr (.inl ⟨S, i, v, rfl, (State.bufRead_ok.mp hb).2, ht.symm⟩)))
  | bufWrite S i v =>
    simp only [runHostStep, hostBufWrite] at ht
    split_ifs at ht with hS hi
    simp only [ne_eq, not_not] at hS
    subst hS
    simp only [Host.Outcome.next.injEq] at ht
    exact .inr (.inr (.inr (.inr (.inl ⟨i, v, rfl, hi, ht.symm⟩))))
  | construct p =>
    simp only [runHostStep, Host.Outcome.next.injEq] at ht
    exact .inr (.inr (.inr (.inr (.inr ⟨p, rfl, ht.symm⟩))))

end Sys2Proof.Machine
end

