-- ==== Sys2Proof/Tests/Slice0.lean ====
section
/-! SUPPORT. The model's own tests. Expected results are the vectors of 95_test_vectors.md, whose ids the
comments name, or the rule named. At the end, for every obligation with hypotheses, states that meet them. -/

namespace Sys2Proof.Tests

open Sys2Proof.Machine

/-! ## Decoding: each word bit by bit, FL then OPC (30_encoding.md R54, R55) -/

theorem test_decode_csum : decode 0b00000000_00000001 = .ok .csum := by decide
theorem test_decode_mkcmd : decode 0b00000000_00000010 = .ok .mkcmd := by decide
theorem test_decode_mkdx : decode 0b00000000_00000011 = .ok .mkdx := by decide
theorem test_decode_enc : decode 0b00000000_00000100 = .ok .enc := by decide
theorem test_decode_ackchk : decode 0b00000000_00000101 = .ok .ackchk := by decide
theorem test_decode_decD2h : decode 0b00000000_00000110 = .ok .decD2h := by decide
theorem test_decode_decH2d : decode 0b00000001_00000110 = .ok .decH2d := by decide
theorem test_decode_decAck : decode 0b00000010_00000110 = .ok .decAck := by decide
theorem test_decode_psHard_up : decode 0b00000000_00010000 = .ok (.psHard false) := by decide
theorem test_decode_psHard_down : decode 0b00000001_00010000 = .ok (.psHard true) := by decide
theorem test_decode_psEnable_on : decode 0b00000001_00010001 = .ok (.psEnable true) := by decide
theorem test_decode_psPre_resp : decode 0b00000001_00010010 = .ok (.psPre true false) := by decide
theorem test_decode_psPre_init : decode 0b00000010_00010010 = .ok (.psPre false true) := by decide
theorem test_decode_psPost_ok : decode 0b00000001_00010011 = .ok (.psPost true false) := by decide
theorem test_decode_psPost_stest : decode 0b00000010_00010011 = .ok (.psPost false true) := by decide
theorem test_decode_bad_opcode : decode 0b00000001_00010100 = .error .badOpcode := by decide
theorem test_decode_reserved_flag : decode 0b00000111_00000110 = .error .reservedFlags := by decide
theorem test_decode_bad_expect : decode 0b00000011_00000110 = .error .badExpect := by decide
theorem test_decodeTableWord : decodeTableWord 16 0x0206 = some .decAck := by decide
theorem test_decodeTableWord_illegal : decodeTableWord 16 0x0306 = none := by decide

/-! ## Well-formedness: an ill-formed term for each check -/

theorem test_wf_read_of_req : (HostStep.regRead 0).wf = false := by decide
theorem test_wf_read_above_11 : (HostStep.regRead 12).wf = false := by decide
theorem test_wf_write_read_only : (HostStep.regWrite 1 0).wf = false := by decide
theorem test_wf_ibuf_read_range : (HostStep.bufRead .ibuf 262).wf = false := by decide
theorem test_wf_fbuf_read_range : (HostStep.bufRead .fbuf 254).wf = false := by decide
theorem test_wf_fbuf_write : (HostStep.bufWrite .fbuf 0 0).wf = false := by decide
theorem test_wf_ibuf_write_range : (HostStep.bufWrite .ibuf 262 0).wf = false := by decide
theorem test_wf_max_payload : (Params.wf ⟨0, .accept⟩) = false := by decide
theorem test_wf_ibuf_write : (HostStep.bufWrite .ibuf 261 0).wf = true := by decide

/-! ## States -/

/-- After construction with a power line, ready policy REJECT. -/
def fresh : State := State.construct true ⟨254, .reject⟩

/-- `fresh` with operand `b`. -/
def withOperand (b : Bytes) : State :=
  { fresh with ibuf := Memory.writeRange [] 0 b, ilen := BitVec.ofNat 16 b.length }

/-- `fresh` holding the frame `(dir, p)`. -/
def withHeld (dir : Byte) (p : Bytes) : State :=
  { fresh with fbuf := Memory.writeRange [] 0 p, flen := BitVec.ofNat 8 p.length, fdir := dir, fsr := 1 }

/-- `fresh` with the given PSR, and ACTION and RESULT as the vectors of 95_test_vectors.md have them. -/
def withPsr (v : Byte) : State := { fresh with psr := v, action := 0x01, result := 0x55 }

/-- `fresh` about to take the host step `h`. -/
def about (h : HostStep) : State := { fresh with pending := [h] }

/-- A field of the next state. -/
def after {α : Type} (a : Answer) (f : State → α) : Option α :=
  match a with
  | .next t => some (f t)
  | .fault _ => none
  | .refused _ => none

/-- The fault of an answer. -/
def faultOf (a : Answer) : Option Fault :=
  match a with
  | .next _ => none
  | .fault f => some f
  | .refused _ => none

theorem next_of_after {a : Answer} {P : State → Bool} (h : after a P = some true) :
    ∃ t, a = .next t ∧ P t = true := by
  cases a with
  | next t => exact ⟨t, rfl, by simpa [after] using h⟩
  | fault f => simp [after] at h
  | refused r => simp [after] at h

/-- `n` bytes `v`. -/
def fill (n : Nat) (v : Byte) : Bytes := List.replicate n v

@[simp] theorem fill_length (n : Nat) (v : Byte) : (fill n v).length = n := List.length_replicate

theorem fill_ne_nil {n : Nat} {v : Byte} (h : 0 < n) : fill n v ≠ [] :=
  List.ne_nil_of_length_pos (by rw [fill_length]; exact h)

/-- `withOperand b` has the operand `b`, whatever fits in IBUF. -/
theorem withOperand_is {b : Bytes} (h : b.length ≤ 262) : OperandIs (withOperand b) b :=
  ⟨by simp only [withOperand, BitVec.toNat_ofNat]; omega, h,
    fun k hk => (Memory.writeRange_stored [] b k).trans (if_pos hk)⟩

/-- `withHeld dir p` holds the frame with payload `p`. -/
theorem withHeld_is {dir : Byte} {p : Bytes} (h : p.length ≤ 254) : HeldFrameIs (withHeld dir p) p :=
  ⟨by simp [withHeld, State.fvalid], by simp only [withHeld, BitVec.toNat_ofNat]; omega, h,
    fun k hk => (Memory.writeRange_stored [] p k).trans (if_pos hk)⟩

/-! ## One step -/

/-- V-CS4 -/
theorem test_csum_wraps : after (exec .csum (withOperand [0xFF, 0xFF])) State.result = some 0x02 := by
  decide
/-- V-CS2 -/
theorem test_csum_empty : after (exec .csum (withOperand [])) State.result = some 0x00 := by decide
/-- V-MK2 -/
theorem test_mkcmd : after (exec .mkcmd (withOperand [0x14, 0x01, 0x14, 0x01]))
    (fun t => (t.flen, t.fdir, t.fvalid, Memory.read t.fbuf 3)) = some (4, 0xD4, true, some 0x01) := by
  decide
/-- V-MK7 -/
theorem test_mkcmd_empty : after (exec .mkcmd (withOperand [])) (fun t => (t.status, t.info))
    = some (0x07, 0x01) := by decide
/-- V-DX1 -/
theorem test_mkdx : after (exec .mkdx (withOperand [0x01, 0x30, 0x04]))
    (fun t => (t.flen, Memory.read t.fbuf 0, Memory.read t.fbuf 3)) = some (4, some 0x40, some 0x04) := by
  decide
/-- V-EN1 -/
theorem test_enc : after (exec .enc (withHeld 0xD4 [0x02])) (fun t => (t.olen, t.obuf.map Prod.snd))
    = some (9, [0x00, 0x00, 0xFF, 0x02, 0xFE, 0xD4, 0x02, 0x2A, 0x00]) := by decide
/-- V-EN13 -/
theorem test_enc_no_frame : after (exec .enc fresh) (fun t => (t.status, t.info)) = some (0x09, 0x01) := by
  decide
/-- V-AK4 -/
theorem test_ackchk_trailing :
    after (exec .ackchk (withOperand [0x00, 0x00, 0xFF, 0x00, 0xFF, 0x00, 0x12, 0x34])) State.result
      = some 0x01 := by decide
/-- V-AK7 -/
theorem test_ackchk_wrong_last :
    after (exec .ackchk (withOperand [0x00, 0x00, 0xFF, 0x00, 0xFF, 0x01])) State.result = some 0x00 := by
  decide
/-- V-DEC5 -/
theorem test_decD2h : after (exec .decD2h (withOperand
      [0x00, 0x00, 0xFF, 0x02, 0xFE, 0xD5, 0x15, 0x16, 0x00, 0xAA, 0xBB]))
    (fun t => (t.result, t.flen, t.fdir, Memory.read t.fbuf 0)) = some (0x03, 1, 0xD5, some 0x15) := by
  decide
/-- V-DEC15 -/
theorem test_decD2h_dcs : after (exec .decD2h (withOperand
      [0x00, 0x00, 0xFF, 0x02, 0xFE, 0xD5, 0x15, 0x17, 0x00])) (fun t => (t.status, t.info))
    = some (0x01, 0x02) := by decide
/-- V-DEC12 -/
theorem test_decH2d_empty : after (exec .decH2d (withOperand
      [0x00, 0x00, 0xFF, 0x01, 0xFF, 0xD4, 0x2C, 0x00])) (fun t => (t.result, t.flen, t.fdir))
    = some (0x03, 0, 0xD4) := by decide
/-- V-DEC21 -/
theorem test_decH2d_direction : after (exec .decH2d (withOperand
      [0x00, 0x00, 0xFF, 0x02, 0xFE, 0xD5, 0x15, 0x16, 0x00])) (fun t => (t.status, t.info))
    = some (0x03, 0x04) := by decide
/-- V-DEC6 -/
theorem test_decAck : after (exec .decAck (withOperand [0x00, 0x00, 0xFF, 0x00, 0xFF, 0x00]))
    (fun t => (t.status, t.result)) = some (0x00, 0x01) := by decide
/-- V-DEC19 -/
theorem test_decAck_nack : after (exec .decAck (withOperand [0x00, 0x00, 0xFF, 0xFF, 0x00, 0x00]))
    (fun t => (t.status, t.info)) = some (0x03, 0x02) := by decide
/-- F4 -/
theorem test_psHard_up : after (exec (.psHard false) (withPsr 0x42)) (fun t => (t.action, t.psr))
    = some (0x03, 0xC0) := by decide
/-- F10 -/
theorem test_psHard_open : after (exec (.psHard true) (withPsr 0xB8))
    (fun t => (t.status, t.info, t.action, t.psr)) = some (0x09, 0x02, 0x00, 0xB8) := by decide
/-- F15 -/
theorem test_psEnable_off : after (exec (.psEnable false) (withPsr 0x8D)) (fun t => (t.result, t.psr))
    = some (0x01, 0x89) := by decide
/-- F16 -/
theorem test_psEnable_down : after (exec (.psEnable true) (withPsr 0x02))
    (fun t => (t.status, t.result, t.psr)) = some (0x05, 0x55, 0x02) := by decide
/-- F20 -/
theorem test_psPre_wakes : after (exec (.psPre true false) (withPsr 0x8D)) (fun t => (t.action, t.psr))
    = some (0x01, 0xBC) := by decide
/-- F22 -/
theorem test_psPre_not_ready : after (exec (.psPre true false) (withPsr 0x80))
    (fun t => (t.status, t.psr)) = some (0x06, 0x80) := by decide
/-- F37 -/
theorem test_psPost_sleeps : after (exec (.psPost true false) (withPsr 0xF4)) (fun t => (t.action, t.psr))
    = some (0x02, 0xED) := by decide
/-- F36 -/
theorem test_psPost_init_failed : after (exec (.psPost false false) (withPsr 0xD0)) State.psr
    = some 0xC0 := by decide

/-- 40_frame_codec.md R93: an ACKCHK result other than ACK, here V-AK2 and V-AK8 over a stale RESULT -/
theorem test_report_ackchk_nack :
    after (exec .ackchk (withOperand [0x00, 0x00, 0xFF, 0xFF, 0x00, 0x00])) (hostReport .ackStage .ackchk)
      = some .transmissionFailure := by decide
theorem test_report_ackchk_range :
    after (exec .ackchk { fresh with ilen := 263, result := 0x01 }) (hostReport .ackStage .ackchk)
      = some .transmissionFailure := by decide
/-- R93: a failed DEC.ACK, here with OperandError -/
theorem test_report_decAck_range : after (exec .decAck { fresh with ilen := 263 })
    (fun t => (t.status, hostReport .ackStage .decAck t)) = some (0x07, .transmissionFailure) := by decide
/-- R93: a DEC failure in the response stage, here V-DEC15 -/
theorem test_report_decD2h : after (exec .decD2h (withOperand
      [0x00, 0x00, 0xFF, 0x02, 0xFE, 0xD5, 0x15, 0x17, 0x00])) (hostReport .responseStage .decD2h)
    = some .frameError := by decide

/-- 20_memory.md R44 -/
theorem test_host_reads_action : after (step (about (.regRead 4))) State.readOut
    = some (some (.byte 0x03)) := by decide
/-- 20_memory.md R46 -/
theorem test_host_reads_unwritten : faultOf (step (about (.bufRead .ibuf 0)))
    = some (.unwrittenRead .ibuf 0) := by decide
/-- 60_exceptions.md R113: ACTION keeps its value for a word with PS_HARD's opcode -/
theorem test_illegal_word : after (step (about (.regWrite 0 0x0210)))
    (fun t => (t.status, t.info, t.action)) = some (0x08, 0x02, 0x03) := by decide
/-- the first step after reset runs the fetched word; V-CS2 -/
theorem test_first_step_after_reset : after (step (State.reset.withFetchWord 16 0x0001))
    (fun t => (t.status, t.result, t.pending)) = some (0x00, 0x00, []) := by decide
/-- 30_encoding.md R77 -/
theorem test_pseudo_frame : frame [0x02]
    = [.bufWrite .ibuf 0 0x02, .regWrite 5 1, .regWrite 0 0x0002, .regWrite 0 0x0004] := by decide

/-! ## Witnesses: for each obligation with hypotheses, data that meet them -/

/-- A request word whose OPC is reserved, as O4 says it. -/
abbrev badOpc (w : Word) : Prop :=
  w.toNat % 256 = 0x00 ∨ (0x07 ≤ w.toNat % 256 ∧ w.toNat % 256 ≤ 0x0F) ∨ 0x14 ≤ w.toNat % 256

/-- A request word with a reserved flag bit, as O4 says it. -/
abbrev badFlags (w : Word) : Prop :=
  (0x01 ≤ w.toNat % 256 ∧ w.toNat % 256 ≤ 0x05 ∧ w.toNat / 256 ≠ 0) ∨
    (w.toNat % 256 = 0x06 ∧ w.toNat / 1024 ≠ 0) ∨
    ((w.toNat % 256 = 0x10 ∨ w.toNat % 256 = 0x11) ∧ w.toNat / 512 ≠ 0) ∨
    ((w.toNat % 256 = 0x12 ∨ w.toNat % 256 = 0x13) ∧ w.toNat / 1024 ≠ 0)

/-- O4: each clause, at the ends of its ranges -/
theorem witness_illegal_words :
    (badOpc 0x0000 ∧ badOpc 0xFF07 ∧ badOpc 0x000F ∧ badOpc 0x0014 ∧ badOpc 0x00FF) ∧
    (badFlags 0x0101 ∧ badFlags 0xFF05 ∧ badFlags 0x0406 ∧ badFlags 0x0706 ∧ badFlags 0x0210 ∧
      badFlags 0xFE11 ∧ badFlags 0x0412 ∧ badFlags 0xFF13) ∧
    ((0x0306 : Word).toNat % 256 = 0x06 ∧ (0x0306 : Word).toNat / 256 = 3) ∧
    (about (.regWrite 0 0x0306)).pending = .regWrite 0 0x0306 :: [] := by
  refine ⟨⟨?_, ?_, ?_, ?_, ?_⟩, ⟨?_, ?_, ?_, ?_, ?_, ?_, ?_, ?_⟩, ?_, rfl⟩ <;> decide

/-- O5, O6 -/
theorem witness_steps :
    (about (.regWrite 0 0x0313)).pending = .regWrite 0 0x0313 :: [] ∧
    decode 0x0313 = .ok (.psPost true true) ∧ fresh.pending = [] := by decide

/-- O7: each clause, at the first and the last register, and at the ends of the buffers -/
theorem witness_host_accesses :
    (1, HostData.byte fresh.status) ∈ [(1, HostData.byte fresh.status), (11, .byte fresh.cfg)] ∧
    (11, HostData.byte fresh.cfg) ∈ [(1, HostData.byte fresh.status), (11, .byte fresh.cfg)] ∧
    (about (.regRead 11)).pending = .regRead 11 :: [] ∧
    (about (.regWrite 5 0xFFFF)).pending = .regWrite 5 0xFFFF :: [] ∧
    0 < Space.obuf.size ∧ 253 < Space.fbuf.size ∧
    Memory.read (State.space { fresh with fbuf := [(253, 0x07)] } .fbuf) 253 = some 0x07 ∧
    (about (.bufWrite .ibuf 261 0x01)).pending = .bufWrite .ibuf 261 0x01 :: [] ∧ 261 < 262 := by
  decide

/-- O8: each clause at a boundary -/
theorem witness_refused_accesses :
    (about (.regRead 0)).pending = .regRead 0 :: [] ∧
    11 < 12 ∧ (about (.regRead 12)).pending = .regRead 12 :: [] ∧
    (about (.regWrite 12 0)).pending = .regWrite 12 0 :: [] ∧
    11 ≤ 11 ∧ 11 ≠ 0 ∧ 11 ≠ 5 ∧ (about (.regWrite 11 0)).pending = .regWrite 11 0 :: [] ∧
    1 ≠ 0 ∧ (about (.regWrite 1 0)).pending = .regWrite 1 0 :: [] ∧
    Space.ibuf.size ≤ 262 ∧ Space.fbuf.size ≤ 254 ∧ Space.obuf.size ≤ 262 ∧
    (about (.bufRead .fbuf 254)).pending = .bufRead .fbuf 254 :: [] ∧
    (about (.bufWrite .ibuf 262 0)).pending = .bufWrite .ibuf 262 0 :: [] ∧
    (about (.bufWrite .fbuf 0 0)).pending = .bufWrite .fbuf 0 0 :: [] ∧
    (about (.bufWrite .obuf 0 0)).pending = .bufWrite .obuf 0 0 :: [] := by decide

/-- O9 and every `FaultsOnUnwrittenOperand`: an unwritten byte, at the largest length that fits -/
theorem witness_unwritten :
    (about (.bufRead .obuf 261)).pending = .bufRead .obuf 261 :: [] ∧ 261 < Space.obuf.size ∧
    Memory.read (fresh.space .obuf) 261 = none ∧
    Instr.readsIbuf .csum = true ∧
    (State.ilen { fresh with ilen := 262 }).toNat ≤ 262 ∧
    0 < (State.ilen { fresh with ilen := 262 }).toNat ∧ Memory.read fresh.ibuf 0 = none ∧
    State.fvalid { fresh with fsr := 1, flen := 254 } = true ∧
    (State.flen { fresh with fsr := 1, flen := 254 }).toNat ≤ 254 ∧
    253 < (State.flen { fresh with fsr := 1, flen := 254 }).toNat ∧
    Memory.read fresh.fbuf 253 = none := by decide

/-- O10: a read and a write that answer a next state, and an opened and a closed exchange -/
theorem witness_repeats :
    (∃ t, step (about (.regRead 10)) = .next t ∧ decide (t.readOut = some (.byte 0x80)) = true) ∧
    (∃ t, step { about (.bufRead .ibuf 0) with ibuf := [(0, 0x09)] } = .next t ∧ decide (t.pending = []) = true) ∧
    (∃ t, step (about (.regWrite 5 7)) = .next t ∧ decide (t.ilen = 7) = true) ∧
    (∃ t, step (about (.bufWrite .ibuf 261 7)) = .next t ∧
      decide (Memory.read t.ibuf 261 = some 7) = true) ∧
    (∃ t, exec (.psPre true false) (withPsr 0x88) = .next t ∧ decide (t.status = 0x00) = true) ∧
    (∃ t, exec (.psPost true false) (withPsr 0xB8) = .next t ∧ decide (t.status = 0x00) = true) := by
  refine ⟨?_, ?_, ?_, ?_, ?_, ?_⟩ <;> exact next_of_after (by decide)

/-- O11 and every statement about an IBUF operand: the empty operand, the longest one, and a length that is
out of range; a zero sum and a permutation -/
theorem witness_operands :
    OperandIs (withOperand []) [] ∧
    OperandIs (withOperand (fill 262 0xFF)) (fill 262 0xFF) ∧
    262 < (State.ilen { fresh with ilen := 263 }).toNat ∧
    sumMod256 [0x80, 0x80] = 0 ∧ List.Perm [(1 : Byte), 2] [2, 1] :=
  ⟨withOperand_is (by simp), withOperand_is (by simp), by decide, by decide, by decide⟩

/-- O12, O13, O22: the shortest and the longest build, an empty operand, and one byte too many -/
theorem witness_builds :
    (OperandIs (withOperand [0x02]) [0x02] ∧ 1 ≤ [(0x02 : Byte)].length ∧
      [(0x02 : Byte)].length ≤ fresh.params.maxPayload.val ∧
      [(0x40 : Byte), 0x02].length ≤ fresh.params.maxPayload.val) ∧
    (OperandIs (withOperand (fill 254 0xFF)) (fill 254 0xFF) ∧
      (fill 254 0xFF).length ≤ fresh.params.maxPayload.val) ∧
    (OperandIs (withOperand (fill 253 0xAA)) (fill 253 0xAA) ∧
      (fill 253 0xAA).length + 1 ≤ fresh.params.maxPayload.val) ∧
    (withOperand []).ilen = 0 ∧
    (OperandIs (withOperand (fill 255 0xFF)) (fill 255 0xFF) ∧
      fill 255 0xFF ≠ [] ∧
      fresh.params.maxPayload.val < (fill 255 0xFF).length) ∧
    fresh.params.maxPayload.val < (fill 254 0xFF).length + 1 := by
  refine ⟨⟨withOperand_is (by simp), by simp, ?_, ?_⟩, ⟨withOperand_is (by simp), ?_⟩,
    ⟨withOperand_is (by simp), ?_⟩, rfl, ⟨withOperand_is (by simp), fill_ne_nil (by decide), ?_⟩, ?_⟩ <;>
    simp [fresh, State.construct]

/-- O14, O44: a held frame with the empty and with the longest payload, none, an ENC that succeeds, and a
decoded device frame with trailing bytes -/
theorem witness_held_frames :
    HeldFrameIs (withHeld 0xD5 []) [] ∧
    HeldFrameIs (withHeld 0xD4 (fill 254 0xFF)) (fill 254 0xFF) ∧
    fresh.fvalid = false ∧
    OperandIs (withOperand (wireFrame 0xD5 [0x15] ++ [0xAA])) (wireFrame 0xD5 [0x15] ++ [0xAA]) ∧
    (∃ t, exec .enc (withHeld 0xD4 [0x02]) = .next t ∧ decide (t.status = 0x00) = true) ∧
    (∃ t, exec .decD2h (withOperand (wireFrame 0xD5 [0x15] ++ [0xAA])) = .next t ∧
      decide (t.status = 0x00) = true) := by
  refine ⟨withHeld_is (by simp), withHeld_is (by simp), by decide, withOperand_is (by simp), ?_, ?_⟩ <;>
    exact next_of_after (by decide)

/-- O15: the three outcomes, with and without bytes after the sentinel -/
theorem witness_ackchk :
    (∃ tail : Bytes, ([0x00, 0x00, 0xFF, 0x00, 0xFF, 0x00, 0x12] : Bytes)
      = [0x00, 0x00, 0xFF, 0x00, 0xFF, 0x00] ++ tail) ∧
    (∃ tail : Bytes, ([0x00, 0x00, 0xFF, 0xFF, 0x00, 0x00] : Bytes)
      = [0x00, 0x00, 0xFF, 0xFF, 0x00, 0x00] ++ tail) ∧
    (∀ tail : Bytes, ([0x00, 0x00, 0xFF] : Bytes) ≠ [0x00, 0x00, 0xFF, 0x00, 0xFF, 0x00] ++ tail) ∧
    (∀ tail : Bytes, ([0x00, 0x00, 0xFF] : Bytes) ≠ [0x00, 0x00, 0xFF, 0xFF, 0x00, 0x00] ++ tail) ∧
    OperandIs (withOperand [0x00, 0x00, 0xFF]) [0x00, 0x00, 0xFF] :=
  ⟨⟨[0x12], rfl⟩, ⟨[], rfl⟩, fun _ => by simp, fun _ => by simp, by decide⟩

/-- O16, O19: each outcome of `classify` -/
theorem witness_classify :
    classify [0x00, 0x00, 0xFF, 0x00, 0xFF] = .fail .malformedShort ∧
    classify [0x00, 0x00, 0xFF, 0x00, 0xFF, 0x00] = .ack ∧
    classify [0x00, 0x00, 0xFF, 0xFF, 0x00, 0x00] = .nack ∧
    classify [0x00, 0x00, 0xFF, 0x02, 0xFE, 0xD5, 0x15, 0x16, 0x00] = .data 0xD5 [0x15] ∧
    classify [0x00, 0x00, 0xFF, 0x01, 0xFF, 0xD4, 0x2C, 0x00] = .data 0xD4 [] ∧
    classify [0x00, 0x00, 0xFF, 0x01, 0xFF, 0x7F, 0x81, 0x00] = .data 0x7F [] := by decide

/-- O17: each test of `classify` in its place. V-DEC9, V-DEC10, V-DEC13 to V-DEC16. -/
theorem witness_classify_order :
    ([0x00, 0x00, 0xFF, 0x00, 0xFF] : Bytes).length < 6 ∧
    6 ≤ ([0x00, 0x00, 0xFE, 0x02, 0xFE, 0xD5] : Bytes).length ∧
    ([0x00, 0x00, 0xFE, 0x02, 0xFE, 0xD5] : Bytes).take 3 ≠ [0x00, 0x00, 0xFF] ∧
    ((∀ tail : Bytes, ([0x00, 0x00, 0xFF, 0x02, 0xFD] : Bytes) ++ [0xD5]
        ≠ [0x00, 0x00, 0xFF, 0x00, 0xFF, 0x00] ++ tail) ∧
      (∀ tail : Bytes, ([0x00, 0x00, 0xFF, 0x02, 0xFD] : Bytes) ++ [0xD5]
        ≠ [0x00, 0x00, 0xFF, 0xFF, 0x00, 0x00] ++ tail) ∧
      ((0x02 : Byte).toNat + (0xFD : Byte).toNat) % 256 ≠ 0) ∧
    (((0x00 : Byte).toNat + (0x00 : Byte).toNat) % 256 = 0 ∧ 1 ≤ [(0x00 : Byte)].length) ∧
    (((0x02 : Byte).toNat + (0xFE : Byte).toNat) % 256 = 0 ∧ (0x02 : Byte) ≠ 0 ∧
      ([0xD5, 0x15, 0x16] : Bytes).length + 5 < (0x02 : Byte).toNat + 7) ∧
    ([(0x15 : Byte)].length + 1 = (0x02 : Byte).toNat ∧
      sumMod256 ([0xD5] ++ [0x15] ++ [0x17]) ≠ 0 ∧ sumMod256 ([0xD5] ++ [0x15] ++ [0x16]) = 0 ∧
      (0x01 : Byte) ≠ 0) :=
  ⟨by decide, by decide, by decide, ⟨fun _ => by simp, fun _ => by simp, by decide⟩, by decide, by decide,
    by decide⟩

/-- O20: an extended frame (V-DEC23) and the error frame (V-DEC22) -/
theorem witness_other_forms :
    ([0x01] : Bytes) ≠ [] ∧
    OperandIs (withOperand [0x00, 0x00, 0xFF, 0xFF, 0xFF, 0x01]) ([0x00, 0x00, 0xFF, 0xFF, 0xFF] ++ [0x01]) ∧
    OperandIs (withOperand [0x00, 0x00, 0xFF, 0x01, 0xFF, 0x7F, 0x81, 0x00])
      [0x00, 0x00, 0xFF, 0x01, 0xFF, 0x7F, 0x81, 0x00] := by decide

/-- O21: the CSUM operands of its last two clauses, at the longest payload -/
theorem witness_checksum_identities :
    (fill 254 0xFF).length ≤ 254 ∧
    OperandIs (withOperand ([0xD4] ++ fill 254 0xFF)) ([0xD4] ++ fill 254 0xFF) ∧
    OperandIs (withOperand [BitVec.ofNat 8 (254 + 1)]) [BitVec.ofNat 8 (254 + 1)] ∧
    (∃ t, exec .csum (withOperand [BitVec.ofNat 8 (254 + 1)]) = .next t ∧
      decide (t.status = 0x00) = true) :=
  ⟨by simp, withOperand_is (by simp), withOperand_is (by simp), next_of_after (by decide)⟩

/-- O22: the copying host, after MKCMD and ENC of one byte -/
theorem witness_loopback :
    ∃ s2 s3 : State, s3.ilen = s2.olen ∧ s2.olen = 9 ∧
      ∀ k, k < s2.olen.toNat → Memory.read s3.ibuf k = Memory.read s2.obuf k :=
  ⟨{ fresh with olen := 9, obuf := Memory.writeRange [] 0 (wireFrame 0xD4 [0x02]) },
    { fresh with ilen := 9, ibuf := Memory.writeRange [] 0 (wireFrame 0xD4 [0x02]) },
    by decide, by decide, by decide⟩

/-- O23: a corrupted byte in each field, preamble, LEN, LCS, direction, payload, DCS, postamble, of a host frame -/
theorem witness_corruption :
    ∀ c : Nat × Byte, c ∈ ([(0, 0x01), (2, 0xFE), (3, 0x03), (4, 0xFF), (5, 0xD5), (6, 0x03), (7, 0x2B),
        (8, 0x80)] : List (Nat × Byte)) →
      [(0x02 : Byte)].length ≤ 254 ∧ c.1 < [(0x02 : Byte)].length + 8 ∧
      (wireFrame 0xD4 [0x02])[c.1]? ≠ some c.2 ∧
      OperandIs (withOperand ((wireFrame 0xD4 [0x02]).set c.1 c.2)) ((wireFrame 0xD4 [0x02]).set c.1 c.2) := by
  decide

/-- O23: the same of a device frame without payload, where the fields meet: indices 2, 3, 4, 5, 6 and 7 -/
theorem witness_corruption_empty :
    ∀ c : Nat × Byte, c ∈ ([(2, 0xFE), (3, 0x00), (4, 0x00), (5, 0xD4), (6, 0x2A), (7, 0x01)]
        : List (Nat × Byte)) →
      ([] : Bytes).length ≤ 254 ∧ c.1 < ([] : Bytes).length + 8 ∧
      (wireFrame 0xD5 [])[c.1]? ≠ some c.2 ∧
      OperandIs (withOperand ((wireFrame 0xD5 []).set c.1 c.2)) ((wireFrame 0xD5 []).set c.1 c.2) := by
  decide

/-- O23: the last byte of the longest device frame, and its LEN -/
theorem witness_corruption_longest :
    (fill 254 0xFF).length ≤ 254 ∧ 261 < (fill 254 0xFF).length + 8 ∧ 261 = (fill 254 0xFF).length + 7 ∧
    (wireFrame 0xD5 (fill 254 0xFF))[261]? ≠ some 0x01 ∧
    OperandIs (withOperand ((wireFrame 0xD5 (fill 254 0xFF)).set 261 0x01))
      ((wireFrame 0xD5 (fill 254 0xFF)).set 261 0x01) ∧
    (wireFrame 0xD5 (fill 254 0xFF))[3]? ≠ some 0x00 ∧
    OperandIs (withOperand ((wireFrame 0xD5 (fill 254 0xFF)).set 3 0x00))
      ((wireFrame 0xD5 (fill 254 0xFF)).set 3 0x00) :=
  ⟨by simp, by simp, by simp, by decide +kernel, withOperand_is (by simp), by decide +kernel,
    withOperand_is (by simp)⟩

/-- O24, O29, O30, O38, O39, O43: a codec and a power operation, each succeeding and each failing -/
theorem witness_operations :
    Instr.isCodec .csum = true ∧ Instr.isCodec (.psPre true true) = false ∧
    (about (.regWrite 10 0)).pending = .regWrite 10 0 :: [] ∧
    (∃ t, exec .csum (withOperand []) = .next t ∧ decide (t.status = 0x00) = true) ∧
    (∃ t, exec .mkcmd (withOperand []) = .next t ∧ decide (t.status ≠ 0x00) = true) ∧
    (∃ t, exec (.psEnable true) (withPsr 0x88) = .next t ∧ decide (t.status = 0x00) = true) ∧
    (∃ t, exec (.psEnable true) (withPsr 0x02) = .next t ∧ decide (t.status ≠ 0x00) = true) ∧
    (∃ t, exec .enc (withHeld 0xD4 [0x02]) = .next t ∧
      decide (t.obuf ≠ (withHeld 0xD4 [0x02]).obuf) = true) := by
  refine ⟨by decide, by decide, by decide, ?_, ?_, ?_, ?_, ?_⟩ <;> exact next_of_after (by decide)

/-- O25 -/
theorem witness_psHard :
    State.hasPline { fresh with cfg := 0 } = false ∧
    (withPsr 0xB8).hasPline = true ∧ (withPsr 0xB8).xact = true ∧
    (withPsr 0x02).xact = false ∧ (withPsr 0x02).pstate = 2 ∧
    (withPsr 0x8D).xact = false ∧ (withPsr 0x8D).pstate ≠ 2 ∧ (withPsr 0x84).psr = 0x84 ∧
    (∃ t, exec (.psHard true) (withPsr 0x8D) = .next t ∧ decide (t.status = 0x00) = true) :=
  ⟨by decide, by decide, by decide, by decide, by decide, by decide, by decide, by decide,
    next_of_after (by decide)⟩

/-- O26, O27: each check of PS_ENABLE and PS_PRE, and admission under each of its three conditions -/
theorem witness_psEnable_psPre :
    (withPsr 0x02).pstate = 2 ∧ (withPsr 0x88).pstate ≠ 2 ∧ (withPsr 0x88).psr = 0x88 ∧
    (withPsr 0xB8).xact = true ∧
    ((withPsr 0x02).xact = false ∧ (withPsr 0x02).pstate = 2) ∧
    ((withPsr 0x80).xact = false ∧ (withPsr 0x80).pstate ≠ 2 ∧ (withPsr 0x80).ready = false ∧
      (withPsr 0x80).params.notReady = .reject) ∧
    ((withPsr 0x8D).xact = false ∧ (withPsr 0x8D).pstate ≠ 2 ∧ (withPsr 0x8D).ready = true) ∧
    State.params { withPsr 0x80 with params := ⟨254, .accept⟩ } = ⟨254, .accept⟩ ∧
    (withPsr 0x8D).psr = 0x8D := by decide

/-- O28: no exchange, an eligible one, and one that is not -/
theorem witness_psPost :
    (withPsr 0x88).xact = false ∧
    ((withPsr 0xBC).xact = true ∧ (withPsr 0xBC).xresp = true ∧ (withPsr 0xBC).psReq = true) ∧
    ((withPsr 0x9C).xact = true ∧ (withPsr 0x9C).xresp = false) ∧ (withPsr 0xBC).psr = 0xBC := by decide

/-- O31: each field changed by an operation that may change it -/
theorem witness_psr_changes :
    (∃ t, exec (.psHard true) (withPsr 0x8C) = .next t ∧
      decide (t.pline ≠ (withPsr 0x8C).pline ∧ t.psReq ≠ (withPsr 0x8C).psReq ∧
        t.ready ≠ (withPsr 0x8C).ready ∧ t.pstate ≠ (withPsr 0x8C).pstate) = true) ∧
    (∃ t, exec (.psPre true true) (withPsr 0x8D) = .next t ∧
      decide (t.xact ≠ (withPsr 0x8D).xact ∧ t.xresp ≠ (withPsr 0x8D).xresp ∧
        t.xinit ≠ (withPsr 0x8D).xinit ∧ t.pstate ≠ (withPsr 0x8D).pstate) = true) ∧
    (∃ t, exec (.psPost true false) (withPsr 0xF4) = .next t ∧
      decide (t.xact ≠ (withPsr 0xF4).xact ∧ t.ready ≠ (withPsr 0xF4).ready ∧
        t.pstate ≠ (withPsr 0xF4).pstate) = true) := by
  refine ⟨?_, ?_, ?_⟩ <;> exact next_of_after (by decide)

/-- O32, O33: a sleep and a wake asked for, from another action; an exchange without RESP -/
theorem witness_sleep_and_wake :
    (∃ t, exec (.psPost true false) (withPsr 0xBC) = .next t ∧ decide (t.action = 0x02) = true) ∧
    (withPsr 0xBC).action ≠ 0x02 ∧
    (∃ t, exec (.psPre false false) { withPsr 0x8D with action := 0x00 } = .next t ∧
      decide (t.action = 0x01 ∧ t.status = 0x00) = true) ∧
    State.action { withPsr 0x8D with action := 0x00 } ≠ 0x01 ∧ (withPsr 0x9C).xresp = false :=
  ⟨next_of_after (by decide), by decide, next_of_after (by decide), by decide, by decide⟩

/-- O34 to O36 -/
theorem witness_power_sequences :
    ((withPsr 0x8C).pstate = 0 ∧ (withPsr 0x8C).psReq = true ∧ (withPsr 0x8C).ready = true ∧
      (withPsr 0x8C).xact = false) ∧
    ((withPsr 0x02).hasPline = true ∧ (withPsr 0x02).pstate = 2 ∧ (withPsr 0x02).xact = false) ∧
    ((withPsr 0xB8).hasPline = true ∧ (withPsr 0xB8).xact = true) := by decide

/-- The five statements of `PowerInv` hold of the PSR of an open exchange with the request set, and of
HARD_DOWN. -/
theorem witness_powerInv : PowerInv (withPsr 0xBC) ∧ PowerInv (withPsr 0x02) := by
  refine ⟨⟨?_, ?_, ?_, ?_, ?_⟩, ⟨?_, ?_, ?_, ?_, ?_⟩⟩ <;> decide

/-- O37: each row of the table, succeeding, and a failed operation -/
theorem witness_transitions :
    (∃ t, exec (.psHard true) (withPsr 0x02) = .next t ∧ decide (t.status = 0x00) = true) ∧
    (∃ t, exec (.psHard false) (withPsr 0x02) = .next t ∧ decide (t.status = 0x00) = true) ∧
    (∃ t, exec (.psEnable false) (withPsr 0xBC) = .next t ∧ decide (t.status = 0x00) = true) ∧
    (∃ t, exec (.psPost true false) (withPsr 0xBC) = .next t ∧ decide (t.status = 0x00) = true) ∧
    (∃ t, exec (.psPre true false) (withPsr 0xBC) = .next t ∧ decide (t.status ≠ 0x00) = true) := by
  refine ⟨?_, ?_, ?_, ?_, ?_⟩ <;> exact next_of_after (by decide)

/-- The invariant holds with a frame held, an encoded frame in OBUF and an operand in IBUF. -/
def busy : State :=
  { withPsr 0xBC with
    ibuf := Memory.writeRange [] 0 [0x02], ilen := 1, fbuf := Memory.writeRange [] 0 [0x02], flen := 1,
    fdir := 0xD4, fsr := 1, obuf := Memory.writeRange [] 0 (wireFrame 0xD4 [0x02]), olen := 9,
    pending := [.regWrite 0 0x0004] }

theorem busy_inv : Inv busy := by
  refine ⟨⟨?_, ?_, ?_, ?_, ?_⟩, ⟨.inl (by decide), ⟨.wake, rfl⟩, ?_, ?_⟩,
    ⟨?_, ?_, ?_, ?_, ?_, ?_, ?_, ?_, ?_, ?_⟩⟩ <;> decide

/-- O37's PS_PRE row, O48, O49: a state of the invariant whose step answers a next state -/
theorem witness_invariant :
    Inv busy ∧ (∃ t, step busy = .next t ∧ decide (t.olen = 9) = true) ∧
    Params.wf ⟨1, .accept⟩ = true ∧ Params.wf ⟨254, .reject⟩ = true ∧ PowerInv (withPsr 0x8D) ∧
    (∃ t, exec (.psPre false false) (withPsr 0x8D) = .next t ∧ decide (t.status = 0x00) = true) :=
  ⟨busy_inv, next_of_after (by decide), by decide, by decide,
    ⟨by decide, by decide, by decide, by decide, by decide⟩, next_of_after (by decide)⟩

/-- O40: an operation that faults from a state of the invariant -/
theorem witness_operation_fault :
    Inv fresh ∧ Inv { fresh with ilen := 1 } ∧
    faultOf (exec .csum { fresh with ilen := 1 }) = some (.unwrittenRead .ibuf 0) := by
  refine ⟨⟨⟨?_, ?_, ?_, ?_, ?_⟩, ⟨.inl (by decide), ⟨.runInit, rfl⟩, ?_, ?_⟩,
    ⟨?_, ?_, ?_, ?_, ?_, ?_, ?_, .inl (by decide), ?_, ?_⟩⟩,
    ⟨⟨?_, ?_, ?_, ?_, ?_⟩, ⟨.inl (by decide), ⟨.runInit, rfl⟩, ?_, ?_⟩,
    ⟨?_, ?_, ?_, ?_, ?_, ?_, ?_, .inl (by decide), ?_, ?_⟩⟩, ?_⟩ <;> decide

/-- O41, O42, O44, O47: a host step that changes ILEN, one that changes IBUF, a frame taken, a build that
fails with a frame held, and a construction -/
theorem witness_changes :
    (∃ t, step (about (.regWrite 5 7)) = .next t ∧ decide (t.ilen ≠ fresh.ilen) = true) ∧
    (∃ t, step (about (.bufWrite .ibuf 0 7)) = .next t ∧ decide (t.ibuf ≠ fresh.ibuf) = true) ∧
    (∃ t, exec .mkcmd (withOperand [0x02]) = .next t ∧ decide (t.fbuf ≠ fresh.fbuf) = true) ∧
    HeldFrameIs (withHeld 0xD5 [0x15]) [0x15] ∧
    (∃ t, exec .mkcmd (withHeld 0xD5 [0x15]) = .next t ∧ decide (t.status ≠ 0x00) = true) ∧
    (about (.construct false)).pending = .construct false :: [] :=
  ⟨next_of_after (by decide), next_of_after (by decide), next_of_after (by decide), by decide,
    next_of_after (by decide), by decide⟩

/-- O45: LOAD of the longest operand, and of none -/
theorem witness_load :
    (fill 262 0xFF).length ≤ 262 ∧ ([] : Bytes).length ≤ 262 ∧
    State.pending { fresh with pending := load (fill 262 0xFF) ++ [.regRead 1] }
      = load (fill 262 0xFF) ++ [.regRead 1] ∧
    State.pending { fresh with pending := load [] } = load [] ++ [] :=
  ⟨by simp, by simp, rfl, rfl⟩

/-- O45: COPYOUT of the longest output -/
theorem witness_copyOut :
    (fill 262 0x07).length ≤ 262 ∧
    (State.olen { fresh with obuf := Memory.writeRange [] 0 (fill 262 0x07), olen := 262 }).toNat
      = (fill 262 0x07).length ∧
    Holds (Memory.writeRange [] 0 (fill 262 0x07)) (fill 262 0x07) ∧
    State.pending { fresh with
        obuf := Memory.writeRange [] 0 (fill 262 0x07), olen := 262, pending := copyOut (fill 262 0x07) ++ [] }
      = copyOut (fill 262 0x07) ++ [] :=
  ⟨by simp, by simp, fun k hk => (Memory.writeRange_stored [] _ k).trans (if_pos hk), rfl⟩

/-- O45: FRAME and DXFRAME of the shortest and the longest payload -/
theorem witness_frame_dxframe :
    (1 ≤ [(0x02 : Byte)].length ∧ [(0x02 : Byte)].length + 1 ≤ fresh.params.maxPayload.val) ∧
    (1 ≤ (fill 254 0xFF).length ∧ (fill 254 0xFF).length ≤ fresh.params.maxPayload.val) ∧
    (1 ≤ (fill 253 0xFF).length ∧ (fill 253 0xFF).length + 1 ≤ fresh.params.maxPayload.val) ∧
    State.pending { fresh with pending := frame (fill 254 0xFF) ++ [] } = frame (fill 254 0xFF) ++ [] ∧
    State.pending { fresh with pending := dxframe (fill 253 0xFF) ++ [.regRead 1] }
      = dxframe (fill 253 0xFF) ++ [.regRead 1] := by
  refine ⟨⟨by simp, by simp [fresh, State.construct]⟩, ⟨by simp, ?_⟩, ⟨by simp, ?_⟩, rfl, rfl⟩ <;>
    simp [fresh, State.construct]

/-- O50: a sentinel and another operand, an ILEN out of range with a stale RESULT, a failed and a successful
DEC, and a code of R111 -/
theorem witness_host_reports :
    OperandIs (withOperand [0x00, 0x00, 0xFF, 0x00, 0xFF, 0x00])
      ([0x00, 0x00, 0xFF, 0x00, 0xFF, 0x00] ++ []) ∧
    OperandIs (withOperand []) [] ∧
    (∀ tail : Bytes, ([] : Bytes) ≠ [0x00, 0x00, 0xFF, 0x00, 0xFF, 0x00] ++ tail) ∧
    262 < (State.ilen { fresh with ilen := 263, result := 0x01 }).toNat ∧
    (∃ t, exec .decD2h (withOperand []) = .next t ∧ decide (t.status ≠ 0x00) = true) ∧
    (∃ t, exec .decD2h (withOperand (wireFrame 0xD5 [0x15])) = .next t ∧
      decide (t.status = 0x00) = true) ∧
    StatusCode.checksumMismatch.code = 0x01 ∧ StatusCode.unexpectedFrameType.code = 0x03 :=
  ⟨withOperand_is (by simp), withOperand_is (by simp), fun _ => by simp, by decide, next_of_after (by decide),
    next_of_after (by decide), rfl, rfl⟩

end Sys2Proof.Tests
end

section
/-! The power operations and the codec state (00_scope.md R1; 20_memory.md R52): each of them completes,
writes nothing of the codec state, and reads nothing of it. -/

namespace Sys2Proof.Machine

/-- The operations that are not the codec's are the four power operations. -/
theorem power_operation_cases {i : Instr} (hi : i.isCodec = false) :
    (∃ down, i = .psHard down) ∨ (∃ en, i = .psEnable en) ∨
    (∃ resp init, i = .psPre resp init) ∨ (∃ ok stest, i = .psPost ok stest) := by
  cases i <;> simp_all [Instr.isCodec]

/-! What a power operation writes. -/

theorem exec_power_next {i : Instr} (hi : i.isCodec = false) (s : State) : ∃ t, exec i s = .next t := by
  obtain ⟨down, rfl⟩ | ⟨en, rfl⟩ | ⟨resp, init, rfl⟩ | ⟨ok, stest, rfl⟩ := power_operation_cases hi
  · exact execPsHard_next down s
  · exact execPsEnable_next en s
  · exact execPsPre_next resp init s
  · exact execPsPost_next ok stest s

/-- The frame of a power operation. -/
theorem exec_power_frame {i : Instr} {s t : State} (hi : i.isCodec = false) (h : exec i s = .next t) :
    t = { s with
      status := t.status, info := t.info, result := t.result, action := t.action, psr := t.psr } := by
  obtain ⟨e, -, rfl⟩ | ⟨p, a, r, rfl⟩ := exec_power_cases hi h <;> rfl

theorem powerDown_result (s : State) : (powerDown s).result = s.result := rfl

theorem powerUp_result (s : State) : (powerUp s).result = s.result := by
  unfold powerUp
  split_ifs <;> rfl

/-- Only PS_ENABLE reports in RESULT (41_power_fsm.md R97 to R100). -/
theorem exec_power_result {i : Instr} {s t : State} (hi : i.isCodec = false)
    (hen : ∀ en, i ≠ .psEnable en) (h : exec i s = .next t) : t.result = s.result := by
  obtain ⟨down, rfl⟩ | ⟨en, rfl⟩ | ⟨resp, init, rfl⟩ | ⟨ok, stest, rfl⟩ := power_operation_cases hi
  · obtain ⟨-, rfl⟩ | ⟨-, -, rfl⟩ | ⟨-, -, -, rfl⟩ | ⟨-, -, -, rfl⟩ := execPsHard_cases h
    · rfl
    · rfl
    · exact powerDown_result s
    · exact powerUp_result s
  · exact absurd rfl (hen en)
  · obtain ⟨e, -, -, rfl⟩ | ⟨-, -, -, rfl⟩ := execPsPre_cases h
    · rfl
    · rw [openExchange_eq]
  · obtain ⟨-, rfl⟩ | ⟨-, rfl⟩ := execPsPost_cases h
    · rfl
    · rw [closeExchange_eq]

/-! What a power operation reads: it commutes with replacing the codec state. -/

/-- `s` with the buffers and the codec registers of `c`. -/
def State.withCodecOf (c s : State) : State :=
  { s with
    ibuf := c.ibuf, fbuf := c.fbuf, obuf := c.obuf, ilen := c.ilen, olen := c.olen, flen := c.flen,
    fdir := c.fdir, fsr := c.fsr }

/-! No check and no decision of a power operation reads the codec state. -/

theorem psHardError_withCodecOf (c s : State) : psHardError (c.withCodecOf s) = psHardError s := rfl

theorem psEnableError_withCodecOf (c s : State) : psEnableError (c.withCodecOf s) = psEnableError s := rfl

theorem psPreError_withCodecOf (init : Bool) (c s : State) :
    psPreError init (c.withCodecOf s) = psPreError init s := rfl

theorem psPostError_withCodecOf (c s : State) : psPostError (c.withCodecOf s) = psPostError s := rfl

theorem powerDown_withCodecOf (c s : State) : powerDown (c.withCodecOf s) = c.withCodecOf (powerDown s) :=
  rfl

theorem powerUp_withCodecOf (c s : State) : powerUp (c.withCodecOf s) = c.withCodecOf (powerUp s) := by
  unfold powerUp
  rw [apply_ite c.withCodecOf]
  rfl

theorem wakeIfAsleep_withCodecOf (c s : State) :
    wakeIfAsleep (c.withCodecOf s) = c.withCodecOf (wakeIfAsleep s) := by
  unfold wakeIfAsleep
  rw [apply_ite c.withCodecOf]
  rfl

theorem setXact_withCodecOf (b : Bool) (c s : State) :
    (c.withCodecOf s).setXact b = c.withCodecOf (s.setXact b) := rfl

theorem recordInit_withCodecOf (ok : Bool) (c s : State) :
    recordInit ok (c.withCodecOf s) = c.withCodecOf (recordInit ok s) := by
  unfold recordInit
  rw [apply_ite c.withCodecOf]
  rfl

theorem sleepIfEligible_withCodecOf (ok stest : Bool) (c s : State) :
    sleepIfEligible ok stest (c.withCodecOf s) = c.withCodecOf (sleepIfEligible ok stest s) := by
  unfold sleepIfEligible
  rw [apply_ite c.withCodecOf]
  rfl

theorem execPsHard_withCodecOf (down : Bool) (c s : State) :
    execPsHard down (c.withCodecOf s) = mapNext c.withCodecOf (execPsHard down s) := by
  simp only [execPsHard, mapNext, psHardError_withCodecOf, powerDown_withCodecOf, powerUp_withCodecOf]
  cases psHardError s with
  | some e => rfl
  | none => cases down <;> rfl

theorem execPsEnable_withCodecOf (en : Bool) (c s : State) :
    execPsEnable en (c.withCodecOf s) = mapNext c.withCodecOf (execPsEnable en s) := by
  simp only [execPsEnable, mapNext, psEnableError_withCodecOf]
  cases psEnableError s <;> rfl

theorem execPsPre_withCodecOf (resp init : Bool) (c s : State) :
    execPsPre resp init (c.withCodecOf s) = mapNext c.withCodecOf (execPsPre resp init s) := by
  simp only [execPsPre, mapNext, psPreError_withCodecOf, wakeIfAsleep_withCodecOf]
  cases psPreError init s <;> rfl

theorem execPsPost_withCodecOf (ok stest : Bool) (c s : State) :
    execPsPost ok stest (c.withCodecOf s) = mapNext c.withCodecOf (execPsPost ok stest s) := by
  simp only [execPsPost, mapNext, psPostError_withCodecOf, setXact_withCodecOf, recordInit_withCodecOf,
    sleepIfEligible_withCodecOf]
  cases psPostError s <;> rfl

/-- A power operation answers the same whatever the codec state, that state aside. -/
theorem exec_power_withCodecOf {i : Instr} (hi : i.isCodec = false) (c s : State) :
    exec i (c.withCodecOf s) = mapNext c.withCodecOf (exec i s) := by
  obtain ⟨down, rfl⟩ | ⟨en, rfl⟩ | ⟨resp, init, rfl⟩ | ⟨ok, stest, rfl⟩ := power_operation_cases hi
  · exact execPsHard_withCodecOf down c s
  · exact execPsEnable_withCodecOf en c s
  · exact execPsPre_withCodecOf resp init c s
  · exact execPsPost_withCodecOf ok stest c s

end Sys2Proof.Machine

open Sys2Proof Sys2Proof.Machine

/-- Settles O29, by the frame of the power operations and their commuting with another codec state. -/
theorem powerOperationsIgnoreAndKeepTheCodecState :
    Obligations.PowerOperationsIgnoreAndKeepTheCodecState := by
  intro i s hi
  refine ⟨?_, fun ibuf fbuf obuf ilen olen flen fdir fsr => ?_⟩
  · obtain ⟨t, ht⟩ := exec_power_next hi s
    exact ⟨t, ht, exec_power_frame hi ht, fun hen => exec_power_result hi hen ht⟩
  · exact exec_power_withCodecOf hi { s with
      ibuf := ibuf, fbuf := fbuf, obuf := obuf, ilen := ilen, olen := olen, flen := flen, fdir := fdir,
      fsr := fsr } s

end

section
/-! What changes the registers and the PSR fields: construction, the host's writes and the operations
(10_state.md R20, R25 to R32, R35). -/

namespace Sys2Proof.Machine

/-! The state after construction. -/

@[simp] theorem State.construct_fvalid (hasPline : Bool) (p : Params) :
    (State.construct hasPline p).fvalid = false :=
  (by decide : (0x00 : Byte).getLsbD 0 = false)

/-- Of PSR only PLINE is set at reset (R35). -/
theorem State.construct_psr (hasPline : Bool) (p : Params) :
    (State.construct hasPline p).psr = psrByte true false false false false false PState.active.code :=
  (by decide : (0x80 : Byte) = psrByte true false false false false false PState.active.code)

theorem State.construct_cfg (hasPline : Bool) (p : Params) :
    (State.construct hasPline p).cfg = if hasPline = true then 0x01 else 0x00 :=
  (by decide : ∀ b : Bool, (BitVec.ofBool b).setWidth 8 = if b = true then (0x01 : Byte) else 0x00) hasPline

@[simp] theorem State.construct_hasPline (hasPline : Bool) (p : Params) :
    (State.construct hasPline p).hasPline = hasPline :=
  (by decide : ∀ b : Bool, ((BitVec.ofBool b).setWidth 8 : Byte).getLsbD 0 = b) hasPline

/-! What an operation leaves unchanged outside its results. -/

/-- The operands of the host, the configuration and the parameters (10_state.md R20, R32; 20_memory.md R37). -/
theorem exec_host_side {i : Instr} {s t : State} (h : exec i s = .next t) :
    t.cfg = s.cfg ∧ t.params = s.params ∧ t.ibuf = s.ibuf ∧ t.ilen = s.ilen := by
  cases hi : i.isCodec with
  | false =>
    rw [exec_power_frame hi h]
    exact ⟨rfl, rfl, rfl, rfl⟩
  | true =>
    obtain ⟨e, -, rfl⟩ | ⟨-, v, rfl⟩ | ⟨-, d, p, r, -, -, rfl⟩ | ⟨-, p, -, rfl⟩ := exec_codec_cases hi h <;>
      exact ⟨rfl, rfl, rfl, rfl⟩

theorem issue_host_side {w : Word} {s t : State} (h : issue w s = .next t) :
    t.cfg = s.cfg ∧ t.params = s.params ∧ t.ibuf = s.ibuf ∧ t.ilen = s.ilen := by
  obtain ⟨i, -, hw⟩ | ⟨e, -, hw⟩ := issue_cases w s
  · exact exec_host_side (hw ▸ h)
  · rw [hw, Host.Outcome.next.injEq] at h
    subst h
    exact ⟨rfl, rfl, rfl, rfl⟩

/-- No codec operation writes PSR (10_state.md R25). -/
theorem exec_codec_psr {i : Instr} {s t : State} (hi : i.isCodec = true) (h : exec i s = .next t) :
    t.psr = s.psr := by
  obtain ⟨e, -, rfl⟩ | ⟨-, v, rfl⟩ | ⟨-, d, p, r, -, -, rfl⟩ | ⟨-, p, -, rfl⟩ :=
    exec_codec_cases hi h <;> rfl

/-! Which PSR fields each power operation can change, and how (10_state.md R26 to R31). -/

theorem State.fields_eq_of_psr_eq {s t : State} (h : t.psr = s.psr) :
    t.pline = s.pline ∧ t.xinit = s.xinit ∧ t.xresp = s.xresp ∧ t.xact = s.xact ∧ t.ready = s.ready ∧
    t.psReq = s.psReq ∧ t.pstate = s.pstate :=
  State.fields_of_psr (h.trans s.psr_eq_psrByte)

theorem powerUp_exchange_fields (s : State) :
    (powerUp s).xinit = s.xinit ∧ (powerUp s).xresp = s.xresp ∧ (powerUp s).xact = s.xact := by
  unfold powerUp
  split_ifs <;> simp

/-- PS_HARD changes no field of the exchange, and none at all without a line. -/
theorem execPsHard_psr_fields {down : Bool} {s t : State} (h : execPsHard down s = .next t) :
    t.xinit = s.xinit ∧ t.xresp = s.xresp ∧ t.xact = s.xact ∧ (t.psr = s.psr ∨ s.hasPline = true) := by
  obtain ⟨-, rfl⟩ | ⟨-, -, rfl⟩ | ⟨hl, -, -, rfl⟩ | ⟨hl, -, -, rfl⟩ := execPsHard_cases h
  · simp
  · simp
  · simp [powerDown, hl]
  · simp [powerUp_exchange_fields, hl]

/-- PS_ENABLE changes PS_REQ at most. -/
theorem execPsEnable_psr_fields {en : Bool} {s t : State} (h : execPsEnable en s = .next t) :
    t.pline = s.pline ∧ t.xinit = s.xinit ∧ t.xresp = s.xresp ∧ t.xact = s.xact ∧ t.ready = s.ready ∧
    t.pstate = s.pstate := by
  obtain ⟨-, rfl⟩ | ⟨-, rfl⟩ := execPsEnable_cases h
  · simp
  · simp

/-- PS_PRE changes nothing, or opens the exchange with its flags and wakes a device in SOFT_SAVE. -/
theorem execPsPre_psr_fields {resp init : Bool} {s t : State} (h : execPsPre resp init s = .next t) :
    t.psr = s.psr ∨
    t.pline = s.pline ∧ t.psReq = s.psReq ∧ t.ready = s.ready ∧ t.xact = true ∧ t.xresp = resp ∧
      t.xinit = init ∧ t.status = 0x00 ∧
      (t.pstate = s.pstate ∨ s.pstate = PState.softSave.code ∧ t.pstate = PState.active.code) := by
  obtain ⟨e, -, -, rfl⟩ | ⟨-, -, -, rfl⟩ := execPsPre_cases h
  · exact .inl rfl
  · refine .inr ?_
    unfold wakeIfAsleep
    split_ifs with hsleep <;> simp [hsleep, StatusCode.code]

/-- PS_POST changes nothing, or closes the exchange, with READY recorded after an initialization and sleep
entered on an eligible end. -/
theorem execPsPost_psr_fields {ok stest : Bool} {s t : State} (h : execPsPost ok stest s = .next t) :
    t.psr = s.psr ∨
    t.pline = s.pline ∧ t.psReq = s.psReq ∧ t.xresp = s.xresp ∧ t.xinit = s.xinit ∧ t.xact = false ∧
      (t.ready = s.ready ∨ s.xinit = true) ∧
      (t.pstate = s.pstate ∨ t.pstate = PState.softSave.code ∧ ok = true ∧ stest = false) := by
  obtain ⟨-, rfl⟩ | ⟨-, rfl⟩ := execPsPost_cases h
  · exact .inl rfl
  · obtain ⟨hpline, hxinit, hxresp, hxact, hready, hpsReq, hpstate⟩ :=
      State.fields_of_psr (congrArg State.psr (closeExchange_eq s ok stest))
    refine .inr ⟨hpline, hpsReq, hxresp, hxinit, hxact, ?_, ?_⟩
    · rw [hready]
      split_ifs with hinit
      · exact .inr hinit
      · exact .inl rfl
    · rw [hpstate]
      split_ifs with hsleep
      · obtain ⟨⟨hok, -⟩, hstest⟩ : (ok = true ∧ s.xresp = true) ∧ stest = false := by
          simpa [eligible] using hsleep.1
        exact .inr ⟨rfl, hok, hstest⟩
      · exact .inl rfl

end Sys2Proof.Machine

open Sys2Proof Sys2Proof.Machine

/-- Settles O31, from the PSR fields that each operation can change. -/
theorem onlyTheirOperationsChangeThePsrFields : Obligations.OnlyTheirOperationsChangeThePsrFields := by
  intro i s t h
  by_cases hpsr : t.psr = s.psr
  · obtain ⟨hpline, hxinit, hxresp, hxact, hready, hpsReq, hpstate⟩ := State.fields_eq_of_psr_eq hpsr
    exact ⟨absurd hpline, absurd hpsReq, absurd hready, absurd hxact,
      fun hne => hne.elim (absurd hxresp) (absurd hxinit), absurd hpstate⟩
  have hi : i.isCodec = false := Bool.eq_false_iff.mpr fun hi => hpsr (exec_codec_psr hi h)
  obtain ⟨down, rfl⟩ | ⟨en, rfl⟩ | ⟨resp, init, rfl⟩ | ⟨ok, stest, rfl⟩ := power_operation_cases hi
  · obtain ⟨hxinit, hxresp, hxact, hline⟩ := execPsHard_psr_fields h
    exact ⟨fun _ => ⟨hline.resolve_left hpsr, down, rfl⟩, fun _ => .inr ⟨down, rfl⟩,
      fun _ => .inl ⟨down, rfl⟩, absurd hxact, fun hne => hne.elim (absurd hxresp) (absurd hxinit),
      fun _ => .inl ⟨down, rfl⟩⟩
  · obtain ⟨hpline, hxinit, hxresp, hxact, hready, hpstate⟩ := execPsEnable_psr_fields h
    exact ⟨absurd hpline, fun _ => .inl ⟨en, rfl⟩, absurd hready, absurd hxact,
      fun hne => hne.elim (absurd hxresp) (absurd hxinit), absurd hpstate⟩
  · obtain ⟨hpline, hpsReq, hready, hxact, hxresp, hxinit, hstatus, hpstate⟩ :=
      (execPsPre_psr_fields h).resolve_left hpsr
    refine ⟨absurd hpline, absurd hpsReq, absurd hready, fun _ => .inl ⟨hxact, resp, init, rfl⟩,
      fun _ => ⟨resp, init, rfl, hstatus, hxresp, hxinit⟩, fun hne => .inr (.inl ?_)⟩
    obtain ⟨hasleep, hwoken⟩ := hpstate.resolve_left hne
    exact ⟨hasleep, hwoken, resp, init, rfl⟩
  · obtain ⟨hpline, hpsReq, hxresp, hxinit, hxact, hready, hpstate⟩ :=
      (execPsPost_psr_fields h).resolve_left hpsr
    refine ⟨absurd hpline, absurd hpsReq, fun hne => .inr ⟨hready.resolve_left hne, ok, stest, rfl⟩,
      fun _ => .inr ⟨hxact, ok, stest, rfl⟩, fun hne => hne.elim (absurd hxresp) (absurd hxinit),
      fun hne => .inr (.inr ?_)⟩
    obtain ⟨hasleep, rfl, rfl⟩ := hpstate.resolve_left hne
    exact ⟨hasleep, rfl⟩

/-- Settles O41: of the host's steps only the two writes reach IBUF and ILEN, and operations keep both. -/
theorem onlyTheHostChangesIbufIlenAndCfg : Obligations.OnlyTheHostChangesIbufIlenAndCfg := by
  intro s t h rest hp ht hnc
  rw [step_of_cons hp] at ht
  obtain ⟨n, v, -, rfl⟩ | ⟨w, -, hw⟩ | ⟨v, rfl, rfl⟩ | ⟨S, i, v, -, -, rfl⟩ | ⟨i, v, rfl, -, rfl⟩ |
    ⟨p, hc, -⟩ := runHostStep_cases ht
  · simp
  · obtain ⟨hcfg, hparams, hibuf, hilen⟩ := issue_host_side hw
    exact ⟨hcfg, hparams, absurd hibuf, absurd hilen⟩
  · simp
  · simp
  · simp
  · exact absurd hc (hnc p)

/-- Settles O30: PSR is its fields, and register 10 is read-only. -/
theorem psrHoldsThePowerFieldsBitByBit : Obligations.PsrHoldsThePowerFieldsBitByBit :=
  ⟨State.psr_eq_psrByte, fun s v rest hp => ⟨.readOnlyRegister 10, by rw [step_of_cons hp]; rfl⟩,
    fun _ _ _ => exec_codec_psr, State.construct_psr _ _⟩

/-- Settles O46, PSR's fields from its byte. -/
theorem constructionGivesTheResetValues : Obligations.ConstructionGivesTheResetValues := by
  rintro h p s rfl
  obtain ⟨hpline, hxinit, hxresp, hxact, hready, hpsReq, hpstate⟩ :=
    State.fields_of_psr (State.construct_psr h p)
  refine ⟨rfl, rfl, rfl, rfl, rfl, rfl, rfl, rfl, rfl, rfl, State.construct_fvalid h p, hpstate, hpsReq,
    hready, hxact, hxresp, hxinit, hpline, State.construct_cfg h p, State.construct_hasPline h p,
    fun S i => ?_⟩
  cases S <;> rfl

end

section
/-! The invariant of a run (10_state.md R34; 41_power_fsm.md R106; 20_memory.md R36 to R39): which registers
each part of it reads, what each update of the model keeps of it, and so each operation and host step. -/

namespace Sys2Proof.Machine

/-! What each part of the invariant reads: states that agree there meet it alike. -/

theorem PowerInv.congr {s t : State} (hs : PowerInv s)
    (hpsr : t.psr = s.psr := by rfl) (hcfg : t.cfg = s.cfg := by rfl) : PowerInv t := by
  obtain ⟨h3, hopen, hdown, hup, hline⟩ := hs
  constructor <;> simpa only [State.pstate, State.xact, State.psReq, State.ready, State.pline,
    State.hasPline, hpsr, hcfg]

theorem CodeInv.congr {s t : State} (hs : CodeInv s)
    (hstatus : t.status = s.status := by rfl) (hinfo : t.info = s.info := by rfl)
    (haction : t.action = s.action := by rfl) (hfsr : t.fsr = s.fsr := by rfl)
    (hcfg : t.cfg = s.cfg := by rfl) : CodeInv t := by
  obtain ⟨hcompletion, ha, hf, hc⟩ := hs
  constructor <;> simpa only [hstatus, hinfo, haction, hfsr, hcfg]

theorem BufferInv.congr {s t : State} (hs : BufferInv s)
    (hibuf : t.ibuf = s.ibuf := by rfl) (hfbuf : t.fbuf = s.fbuf := by rfl)
    (hobuf : t.obuf = s.obuf := by rfl) (hflen : t.flen = s.flen := by rfl)
    (hfdir : t.fdir = s.fdir := by rfl) (hfsr : t.fsr = s.fsr := by rfl)
    (holen : t.olen = s.olen := by rfl) (hparams : t.params = s.params := by rfl) : BufferInv t := by
  obtain ⟨hi, hf, ho, hbound, hframe, hdir, hnone, hrange, hout, hp⟩ := hs
  constructor <;> simpa only [State.fvalid, hibuf, hfbuf, hobuf, hflen, hfdir, hfsr, holen, hparams]

/-! The updates outside PSR. -/

theorem Inv.withPending {s : State} (hs : Inv s) (l : List HostStep) : Inv { s with pending := l } :=
  ⟨hs.power.congr, hs.code.congr, hs.buffer.congr⟩

theorem Inv.withReadOut {s : State} (hs : Inv s) (r : Option HostData) : Inv { s with readOut := r } :=
  ⟨hs.power.congr, hs.code.congr, hs.buffer.congr⟩

theorem Inv.withIlen {s : State} (hs : Inv s) (n : Word) : Inv { s with ilen := n } :=
  ⟨hs.power.congr, hs.code.congr, hs.buffer.congr⟩

theorem Inv.setResult {s : State} (hs : Inv s) (v : Byte) : Inv (s.setResult v) :=
  ⟨hs.power.congr, hs.code.congr, hs.buffer.congr⟩

theorem Inv.complete {s : State} (hs : Inv s) : Inv s.complete :=
  ⟨hs.power.congr, { hs.code with completion := .inl ⟨rfl, rfl⟩ }, hs.buffer.congr⟩

/-- An error completion writes one error's pair of codes, and NONE as the action at most. -/
theorem CodeInv.raise {s : State} (hs : CodeInv s) (f : Family) (e : Err) : CodeInv (s.raise f e) := by
  refine { hs with completion := .inr ⟨e, rfl, rfl⟩, action := ?_ }
  by_cases hf : f = .power
  · exact ⟨.none, if_pos hf⟩
  · simpa [hf] using hs.action

theorem Inv.raise {s : State} (hs : Inv s) (f : Family) (e : Err) : Inv (s.raise f e) :=
  ⟨hs.power.congr, hs.code.raise f e, hs.buffer.congr⟩

/-- A byte that a ranged write from index 0 covers has been written. -/
theorem Memory.read_writeRange_isSome {m : Memory} {b : Bytes} {k : Nat} (hk : k < b.length) :
    (Memory.read (Memory.writeRange m 0 b) k).isSome = true := by
  rw [Memory.writeRange_stored m b k, if_pos hk]
  simpa using hk

theorem setBit_zero_reserved {v : Byte} (hv : v &&& 0xFE = 0) : setBit v 0 true &&& 0xFE = 0 := by
  rw [setBit_zero_true]
  revert v
  decide +kernel

theorem BufferInv.holdFrame {s : State} (hs : BufferInv s) {d : Byte} {p : Bytes} (hp : p.length ≤ 254)
    (hd : d = dirH2d ∨ d = dirD2h) : BufferInv (s.holdFrame d p) := by
  have hlen : (s.holdFrame d p).flen.toNat = p.length := by
    rw [State.holdFrame_flen, BitVec.toNat_ofNat]
    omega
  exact { hs with
    fbufWf := Memory.wf_writeRange ((Nat.zero_add _).trans_le hp) hs.fbufWf
    flenBound := hlen.trans_le hp
    frameWritten := fun _ k hk => Memory.read_writeRange_isSome (by omega)
    frameDir := fun _ => hd
    noFrame := fun hv => by simp at hv }

theorem Inv.holdFrame {s : State} (hs : Inv s) {d : Byte} {p : Bytes} (hp : p.length ≤ 254)
    (hd : d = dirH2d ∨ d = dirD2h) : Inv (s.holdFrame d p) :=
  ⟨hs.power.congr, { hs.code with fsrReserved := setBit_zero_reserved hs.code.fsrReserved },
    hs.buffer.holdFrame hp hd⟩

theorem BufferInv.putOutput {s : State} (hs : BufferInv s) {f : Bytes} (hf : 8 ≤ f.length)
    (hf' : f.length ≤ 262) : BufferInv (s.putOutput f) := by
  have hlen : (s.putOutput f).olen.toNat = f.length := by
    rw [State.putOutput_olen, BitVec.toNat_ofNat]
    omega
  exact { hs with
    obufWf := Memory.wf_writeRange ((Nat.zero_add _).trans_le hf') hs.obufWf
    olenRange := .inr (by rw [hlen]; exact ⟨hf, hf'⟩)
    outputWritten := fun k hk => Memory.read_writeRange_isSome (by omega) }

/-- The encoded frame of a payload that FBUF can hold fits OBUF (10_state.md R21, log 8). -/
theorem Inv.putFrame {s : State} (hs : Inv s) {d : Byte} {p : Bytes} (hp : p.length ≤ 254) :
    Inv (s.putOutput (frameBytes d p)) :=
  ⟨hs.power.congr, hs.code.congr,
    hs.buffer.putOutput (by simp) (by rw [frameBytes_length]; omega)⟩

theorem Inv.writeIbuf {s : State} (hs : Inv s) {i : Nat} (hi : i < bufBytes) (v : Byte) :
    Inv { s with ibuf := Memory.write s.ibuf i v } :=
  ⟨hs.power.congr, hs.code.congr, { hs.buffer with ibufWf := Memory.wf_write v hi hs.buffer.ibufWf }⟩

/-! What each power operation makes of R34 and of ACTION. -/

theorem PowerInv.pstate_cases {s : State} (hs : PowerInv s) :
    s.pstate = PState.active.code ∨ s.pstate = PState.softSave.code ∨ s.pstate = PState.hardDown.code := by
  have h3 := hs.pstateLegal
  revert h3
  generalize s.pstate = x
  revert x
  decide

/-- At the powered level a device that is active, or asleep outside an exchange, meets R34. -/
theorem PowerInv.of_up {s : State} (hl : s.pline = true)
    (h : s.pstate = PState.active.code ∨ s.pstate = PState.softSave.code ∧ s.xact = false) :
    PowerInv s := by
  obtain h | ⟨h, hx⟩ := h
  · constructor <;> simp [h, hl, PState.code]
  · constructor <;> simp [h, hx, hl, PState.code]

theorem PowerInv.powerDown {s : State} (hx : s.xact = false) (hl : s.hasPline = true) :
    PowerInv (powerDown s) := by
  constructor <;> simp [Machine.powerDown, hx, hl, PState.code]

theorem PowerInv.powerUp {s : State} (hs : PowerInv s) : PowerInv (powerUp s) := by
  unfold Machine.powerUp
  split_ifs with hd
  · exact .of_up (by simp) (.inl (by simp))
  · exact hs.congr

theorem PowerInv.setPsReq {s : State} (hs : PowerInv s) (hd : s.pstate ≠ PState.hardDown.code)
    (b : Bool) : PowerInv (s.setPsReq b) where
  pstateLegal := by simpa using hs.pstateLegal
  openActive := by simpa using hs.openActive
  downCleared := fun h => absurd (by simpa using h) hd
  upPowered := by simpa using hs.upPowered
  noLineNotDown := by simpa using hs.noLineNotDown

/-- Outside HARD_DOWN the wake decision leaves the device active. -/
theorem wakeIfAsleep_pstate {s : State} (hs : PowerInv s) (hd : s.pstate ≠ PState.hardDown.code) :
    (wakeIfAsleep s).pstate = PState.active.code := by
  unfold wakeIfAsleep
  split_ifs with hsleep
  · simp
  · simpa using (hs.pstate_cases.resolve_right (not_or.mpr ⟨hsleep, hd⟩))

theorem wakeIfAsleep_pline (s : State) : (wakeIfAsleep s).pline = s.pline := by
  unfold wakeIfAsleep
  split_ifs <;> simp

theorem PowerInv.openExchange {s : State} (hs : PowerInv s) (hd : s.pstate ≠ PState.hardDown.code)
    (resp init : Bool) :
    PowerInv ((((wakeIfAsleep s).setXact true).setXresp resp).setXinit init) :=
  .of_up (by simpa [wakeIfAsleep_pline] using hs.upPowered hd)
    (.inl (by simpa using wakeIfAsleep_pstate hs hd))

/-- Closing an exchange leaves the active device active, or asleep. -/
theorem PowerInv.closeExchange {s : State} (hs : PowerInv s) (hx : s.xact = true) (ok stest : Bool) :
    PowerInv (sleepIfEligible ok stest (recordInit ok (s.setXact false))) := by
  have hactive := hs.openActive hx
  have hl : s.pline = true := hs.upPowered (by rw [hactive]; decide)
  obtain ⟨r, hr⟩ : ∃ r, recordInit ok (s.setXact false) = (s.setXact false).setReady r :=
    ⟨_, recordInit_eq _ _⟩
  rw [hr]
  unfold sleepIfEligible
  split_ifs with hsleep
  · exact .of_up (by simpa using hl) (.inr (by simp))
  · exact .of_up (by simpa using hl) (.inl (by simpa using hactive))

theorem exec_power_keeps_powerInv {i : Instr} {s t : State} (hi : i.isCodec = false) (hs : PowerInv s)
    (h : exec i s = .next t) : PowerInv t := by
  obtain ⟨down, rfl⟩ | ⟨en, rfl⟩ | ⟨resp, init, rfl⟩ | ⟨ok, stest, rfl⟩ := power_operation_cases hi
  · obtain ⟨-, rfl⟩ | ⟨-, -, rfl⟩ | ⟨hl, hx, -, rfl⟩ | ⟨-, -, -, rfl⟩ := execPsHard_cases h
    · exact hs.congr
    · exact hs.congr
    · exact (PowerInv.powerDown hx hl).congr
    · exact hs.powerUp.congr
  · obtain ⟨-, rfl⟩ | ⟨hd, rfl⟩ := execPsEnable_cases h
    · exact hs.congr
    · exact (hs.setPsReq hd en).congr
  · obtain ⟨e, -, -, rfl⟩ | ⟨-, -, hd, rfl⟩ := execPsPre_cases h
    · exact hs.congr
    · exact (hs.openExchange hd resp init).congr
  · obtain ⟨-, rfl⟩ | ⟨hx, rfl⟩ := execPsPost_cases h
    · exact hs.congr
    · exact (hs.closeExchange hx ok stest).congr

/-- Every power operation writes one of the four actions (30_encoding.md R73). -/
theorem exec_power_action {i : Instr} {s t : State} (hi : i.isCodec = false) (h : exec i s = .next t) :
    ∃ a : Action, t.action = a.code := by
  obtain ⟨down, rfl⟩ | ⟨en, rfl⟩ | ⟨resp, init, rfl⟩ | ⟨ok, stest, rfl⟩ := power_operation_cases hi
  · obtain ⟨-, rfl⟩ | ⟨-, -, rfl⟩ | ⟨-, -, -, rfl⟩ | ⟨-, -, -, rfl⟩ := execPsHard_cases h
    · exact ⟨.none, rfl⟩
    · exact ⟨.none, rfl⟩
    · exact ⟨.none, rfl⟩
    · unfold powerUp
      split_ifs
      · exact ⟨.runInit, rfl⟩
      · exact ⟨.none, rfl⟩
  · obtain ⟨-, rfl⟩ | ⟨-, rfl⟩ := execPsEnable_cases h
    · exact ⟨.none, rfl⟩
    · exact ⟨.none, rfl⟩
  · obtain ⟨e, -, -, rfl⟩ | ⟨-, -, -, rfl⟩ := execPsPre_cases h
    · exact ⟨.none, rfl⟩
    · rw [openExchange_eq, ← apply_ite Action.code]
      exact ⟨_, rfl⟩
  · obtain ⟨-, rfl⟩ | ⟨-, rfl⟩ := execPsPost_cases h
    · exact ⟨.none, rfl⟩
    · rw [closeExchange_eq, ← apply_ite Action.code]
      exact ⟨_, rfl⟩

/-! Every operation, host step and step keeps the invariant. -/

theorem exec_power_keeps_inv {i : Instr} {s t : State} (hi : i.isCodec = false) (hs : Inv s)
    (h : exec i s = .next t) : Inv t := by
  have hpower := exec_power_keeps_powerInv hi hs.power h
  have haction := exec_power_action hi h
  obtain ⟨e, -, rfl⟩ | ⟨p, a, r, rfl⟩ := exec_power_cases hi h
  · exact hs.raise .power e
  · exact ⟨hpower, { hs.code with completion := .inl ⟨rfl, rfl⟩, action := haction }, hs.buffer.congr⟩

theorem exec_codec_keeps_inv {i : Instr} {s t : State} (hi : i.isCodec = true) (hs : Inv s)
    (h : exec i s = .next t) : Inv t := by
  obtain ⟨e, -, rfl⟩ | ⟨-, v, rfl⟩ | ⟨-, d, p, r, hp, hd, rfl⟩ | ⟨-, p, ⟨-, -, hp, -⟩, rfl⟩ :=
    exec_codec_cases hi h
  · exact hs.raise .codec e
  · exact (hs.setResult v).complete
  · exact ((hs.holdFrame hp hd).setResult r).complete
  · exact (hs.putFrame hp).complete

theorem exec_keeps_inv {i : Instr} {s t : State} (hs : Inv s) (h : exec i s = .next t) : Inv t := by
  cases hi : i.isCodec with
  | false => exact exec_power_keeps_inv hi hs h
  | true => exact exec_codec_keeps_inv hi hs h

theorem issue_keeps_inv {w : Word} {s t : State} (hs : Inv s) (h : issue w s = .next t) : Inv t := by
  obtain ⟨i, -, hw⟩ | ⟨e, -, hw⟩ := issue_cases w s
  · exact exec_keeps_inv hs (hw ▸ h)
  · rw [hw, Host.Outcome.next.injEq] at h
    exact h ▸ hs.raise .request (illegalErr e)

/-- A construction gives a state of the invariant, whatever HAS_PLINE (R35). -/
theorem inv_construct (hasPline : Bool) {p : Params} (hp : p.wf = true) :
    Inv (State.construct hasPline p) where
  power :=
    have ⟨hpline, _, _, _, _, _, hpstate⟩ := State.fields_of_psr (State.construct_psr hasPline p)
    .of_up hpline (.inl hpstate)
  code := {
    completion := .inl ⟨rfl, rfl⟩
    action := ⟨.runInit, rfl⟩
    fsrReserved := (BitVec.zero_and : 0#8 &&& 0xFE#8 = 0#8)
    cfgReserved := by cases hasPline <;> rw [State.construct_cfg] <;> decide }
  buffer := {
    ibufWf := rfl
    fbufWf := rfl
    obufWf := rfl
    flenBound := Nat.zero_le _
    frameWritten := fun _ k hk => absurd hk (Nat.not_lt_zero k)
    frameDir := fun hv => by simp at hv
    noFrame := fun _ => ⟨rfl, rfl⟩
    olenRange := .inl rfl
    outputWritten := fun k hk => absurd hk (Nat.not_lt_zero k)
    paramsWf := hp }

theorem runHostStep_keeps_inv {h : HostStep} {s t : State} (hs : Inv s)
    (ht : runHostStep h s = .next t) : Inv t := by
  obtain ⟨n, v, -, rfl⟩ | ⟨w, -, hw⟩ | ⟨v, -, rfl⟩ | ⟨S, i, v, -, -, rfl⟩ | ⟨i, v, -, hi, rfl⟩ |
    ⟨p, -, rfl⟩ := runHostStep_cases ht
  · exact hs.withReadOut _
  · exact issue_keeps_inv hs hw
  · exact hs.withIlen v
  · exact hs.withReadOut _
  · exact hs.writeIbuf hi v
  · exact (inv_construct p hs.buffer.paramsWf).withPending s.pending

end Sys2Proof.Machine

open Sys2Proof Sys2Proof.Machine

/-- Settles O49: waiting changes nothing, and every host step keeps the invariant. -/
theorem everyStepKeepsTheInvariant : Obligations.EveryStepKeepsTheInvariant := by
  intro s t hs ht
  cases hp : s.pending with
  | nil =>
    rw [step_of_nil hp, Host.Outcome.next.injEq] at ht
    exact ht ▸ hs
  | cons h rest =>
    rw [step_of_cons hp] at ht
    exact runHostStep_keeps_inv (hs.withPending rest) ht

/-- Settles O48; the parameters of `State.reset` are allowed ones, whatever its policy (log 4). -/
theorem constructionMeetsTheInvariant : Obligations.ConstructionMeetsTheInvariant :=
  ⟨fun h _ hp => inv_construct h hp, inv_construct _ rfl⟩

end

section
/-! The host port and the byte spaces (20_memory.md R36 to R47): what each host access answers, what an
unwritten byte does, and which operations reach FBUF and OBUF. -/

namespace Sys2Proof.Machine

/-! What each host access answers: the next state of an allowed one (R44), and the fault of a refused one
(R45). -/

theorem State.register_eq_none {n : Nat} (h : 11 < n) (s : State) : s.register n = none := by
  obtain ⟨m, rfl⟩ := Nat.exists_eq_add_of_le' h
  rfl

theorem regRead_next_iff {n : Nat} {s t : State} :
    regRead n s = .next t ↔ ∃ v, s.register n = some v ∧ t = { s with readOut := some v } := by
  unfold regRead
  split_ifs with h0
  · simp [h0, State.register]
  · cases s.register n <;> simp [eq_comm]

theorem regRead_fault_of_gt {n : Nat} (h : 11 < n) (s : State) :
    regRead n s = .fault (.noSuchRegister n) := by
  have h0 : n ≠ 0 := by omega
  simp [regRead, State.register_eq_none h, h0]

theorem regWrite_fault_of_gt {n : Nat} (h : 11 < n) (v : Word) (s : State) :
    regWrite n v s = .fault (.noSuchRegister n) := by
  unfold regWrite
  rw [if_neg (by omega), if_neg (by omega), if_neg (by omega)]

theorem regWrite_fault_of_readOnly {n : Nat} (h : n ≤ 11) (h0 : n ≠ 0) (h5 : n ≠ 5) (v : Word)
    (s : State) : regWrite n v s = .fault (.readOnlyRegister n) := by
  simp [regWrite, h, h0, h5]

theorem hostBufRead_next_iff {S : Space} {i : Nat} {s t : State} :
    hostBufRead S i s = .next t ↔
      ∃ v, s.bufRead S i = .ok v ∧ t = { s with readOut := some (.byte v) } := by
  unfold hostBufRead
  cases s.bufRead S i <;> simp [eq_comm]

theorem hostBufRead_fault_of_error {S : Space} {i : Nat} {s : State} {f : Fault}
    (h : s.bufRead S i = .error f) : hostBufRead S i s = .fault f := by
  simp [hostBufRead, h]

theorem hostBufWrite_next_iff {S : Space} {i : Nat} {v : Byte} {s t : State} :
    hostBufWrite S i v s = .next t ↔
      S = .ibuf ∧ i < bufBytes ∧ t = { s with ibuf := Memory.write s.ibuf i v } := by
  unfold hostBufWrite
  by_cases hS : S = .ibuf
  · subst hS
    by_cases hi : i < bufBytes
    · simp [hi, Space.size, State.withSpace, State.space, eq_comm]
    · simp [hi, Space.size]
  · simp [hS]

theorem hostBufWrite_fault_of_readOnly {S : Space} (hS : S ≠ .ibuf) (i : Nat) (v : Byte) (s : State) :
    hostBufWrite S i v s = .fault (.readOnlyBuffer S) :=
  if_pos hS

theorem hostBufWrite_fault_of_range {S : Space} {i : Nat} (hi : S.size ≤ i) (v : Byte) (s : State) :
    ∃ f, hostBufWrite S i v s = .fault f := by
  unfold hostBufWrite
  split_ifs
  · exact ⟨_, rfl⟩
  · omega
  · exact ⟨_, rfl⟩

/-! Unwritten bytes (R46). -/

theorem State.bufRead_unwritten {s : State} {S : Space} {i : Nat} (hi : i < S.size)
    (hr : Memory.read (s.space S) i = none) : s.bufRead S i = .error (.unwrittenRead S i) := by
  simp [State.bufRead, hi, hr]

/-- Inside a space a ranged read can fault on an unwritten byte only. -/
theorem State.memRead_error_inRange {s : State} {S : Space} {n : Nat} {f : Fault} (hn : n ≤ S.size)
    (h : s.memRead S 0 n = .error f) :
    ∃ k, k < n ∧ Memory.read (s.space S) k = none ∧ f = .unwrittenRead S k := by
  obtain ⟨k, hk, he, -⟩ := State.memRead_error.mp h
  rw [Nat.zero_add] at he
  cases hr : Memory.read (s.space S) k with
  | none =>
    rw [State.bufRead_unwritten (by omega) hr] at he
    exact ⟨k, hk, hr, (Except.error.inj he).symm⟩
  | some v =>
    rw [State.bufRead_ok.mpr ⟨by omega, hr⟩] at he
    cases he

theorem Holds.read_ne_none {m : Memory} {b : Bytes} (h : Holds m b) {k : Nat} (hk : k < b.length) :
    Memory.read m k ≠ none := by
  rw [h k hk]
  simpa using hk

/-- `operands()` faults when a byte it reads is unwritten, on such a byte. -/
theorem withOperands_fault {s : State} (hl : s.ilen.toNat ≤ 262)
    (hu : ∃ n, n < s.ilen.toNat ∧ Memory.read s.ibuf n = none) (k : Bytes → Answer) :
    ∃ n, n < s.ilen.toNat ∧ Memory.read s.ibuf n = none ∧
      withOperands s k = .fault (.unwrittenRead .ibuf n) := by
  obtain ⟨n, hn, hr⟩ := hu
  obtain ⟨hgt, -⟩ | ⟨m, -, hm, hmr, -, hw⟩ | ⟨b, ⟨hb, -, hh⟩, -⟩ := withOperands_cases s k
  · omega
  · exact ⟨m, hm, hmr, hw⟩
  · exact absurd hr (Holds.read_ne_none hh (hb ▸ hn))

/-- ENC's operand step faults when a byte of the held frame is unwritten, on such a byte. -/
theorem withFrame_fault {s : State} (hv : s.fvalid = true) (hl : s.flen.toNat ≤ 254)
    (hu : ∃ n, n < s.flen.toNat ∧ Memory.read s.fbuf n = none) (k : Bytes → Answer) :
    ∃ n, n < s.flen.toNat ∧ Memory.read s.fbuf n = none ∧
      withFrame s k = .fault (.unwrittenRead .fbuf n) := by
  obtain ⟨n, hn, hr⟩ := hu
  obtain ⟨hv', -⟩ | ⟨-, f, he, hw⟩ | ⟨p, ⟨-, hp, -, hh⟩, -⟩ := withFrame_cases s k
  · simp [hv] at hv'
  · obtain ⟨m, hm, hmr, rfl⟩ := State.memRead_error_inRange (S := .fbuf) hl he
    exact ⟨m, hm, hmr, hw⟩
  · exact absurd hr (Holds.read_ne_none hh (hp ▸ hn))

/-- The operations with IBUF operands begin with `operands()` (40_frame_codec.md R79). -/
theorem exec_eq_withOperands {i : Instr} (hi : i.readsIbuf = true) (s : State) :
    ∃ k, exec i s = withOperands s k := by
  cases i with
  | csum | mkcmd | mkdx | ackchk | decD2h | decH2d | decAck => exact ⟨_, rfl⟩
  | enc | psHard | psEnable | psPre | psPost => cases hi

/-! Repeating a host access, or a power operation (R47). -/

theorem Memory.write_write (m : Memory) (i : Nat) (v : Byte) :
    Memory.write (Memory.write m i v) i v = Memory.write m i v := by
  induction m with
  | nil => simp [Memory.write]
  | cons c m ih =>
    obtain ⟨a, w⟩ := c
    simp only [Memory.write]
    split_ifs with hlt heq
    · simp [Memory.write]
    · simp [Memory.write]
    · simp [Memory.write, hlt, heq, ih]

/-- No error is reported under the code of success (30_encoding.md R70). -/
theorem Err.status_ne_ok (e : Err) : e.status ≠ 0x00 := by
  cases e <;> decide

/-- A successful PS_PRE leaves the exchange open (41_power_fsm.md R99). -/
theorem execPsPre_opens {resp init : Bool} {s t : State} (h : execPsPre resp init s = .next t)
    (ht : t.status = 0x00) : t.xact = true := by
  obtain ⟨e, -, -, rfl⟩ | ⟨-, -, -, rfl⟩ := execPsPre_cases h
  · exact absurd ht e.status_ne_ok
  · simp

/-- A PS_POST that completes leaves the exchange closed, whether it succeeds or not (41_power_fsm.md R100). -/
theorem execPsPost_closes {ok stest : Bool} {s t : State} (h : execPsPost ok stest s = .next t) :
    t.xact = false := by
  obtain ⟨hx, rfl⟩ | ⟨-, rfl⟩ := execPsPost_cases h
  · exact hx
  · obtain ⟨-, -, -, hxact, -⟩ := State.fields_of_psr (congrArg State.psr (closeExchange_eq s ok stest))
    exact hxact

theorem execPsPre_of_open {s : State} (hx : s.xact = true) (resp init : Bool) :
    execPsPre resp init s = .next (s.raise .power .sequenceXactOpen) := by
  simp [execPsPre, psPreError, hx]

theorem execPsPost_of_closed {s : State} (hx : s.xact = false) (ok stest : Bool) :
    execPsPost ok stest s = .next (s.raise .power .sequenceNoXact) := by
  simp [execPsPost, psPostError, hx]

/-! Which operations reach FBUF and OBUF (R38, R39). -/

/-- An operation keeps FBUF and the frame registers, or it is a build or a decode and holds a frame. -/
theorem exec_frame_cases {i : Instr} {s t : State} (h : exec i s = .next t) :
    (t.fbuf = s.fbuf ∧ t.flen = s.flen ∧ t.fdir = s.fdir ∧ t.fsr = s.fsr) ∨
    (i = .mkcmd ∨ i = .mkdx ∨ i = .decD2h ∨ i = .decH2d) ∧
      ∃ d p r, p.length ≤ 254 ∧ t = ((s.holdFrame d p).setResult r).complete := by
  cases hi : i.isCodec with
  | false =>
    rw [exec_power_frame hi h]
    exact .inl ⟨rfl, rfl, rfl, rfl⟩
  | true =>
    obtain ⟨e, -, rfl⟩ | ⟨-, v, rfl⟩ | ⟨hb, d, p, r, hp, -, rfl⟩ | ⟨-, p, -, rfl⟩ := exec_codec_cases hi h
    · exact .inl ⟨rfl, rfl, rfl, rfl⟩
    · exact .inl ⟨rfl, rfl, rfl, rfl⟩
    · exact .inr ⟨hb, d, p, r, hp, rfl⟩
    · exact .inl ⟨rfl, rfl, rfl, rfl⟩

/-- An operation keeps OBUF and OLEN, or it is ENC and puts the encoded frame. -/
theorem exec_output_cases {i : Instr} {s t : State} (h : exec i s = .next t) :
    (t.obuf = s.obuf ∧ t.olen = s.olen) ∨
    i = .enc ∧ ∃ p, HeldFrameIs s p ∧ t = (s.putOutput (frameBytes s.fdir p)).complete := by
  cases hi : i.isCodec with
  | false =>
    rw [exec_power_frame hi h]
    exact .inl ⟨rfl, rfl⟩
  | true =>
    obtain ⟨e, -, rfl⟩ | ⟨-, v, rfl⟩ | ⟨-, d, p, r, -, -, rfl⟩ | henc := exec_codec_cases hi h
    · exact .inl ⟨rfl, rfl⟩
    · exact .inl ⟨rfl, rfl⟩
    · exact .inl ⟨rfl, rfl⟩
    · exact .inr henc

/-- A ranged write from index 0 leaves the bytes behind it. -/
theorem Memory.read_writeRange_of_le {m : Memory} {b : Bytes} {k : Nat} (hk : b.length ≤ k) :
    Memory.read (Memory.writeRange m 0 b) k = Memory.read m k :=
  (Memory.writeRange_stored m b k).trans (if_neg (Nat.not_lt.mpr hk))

theorem State.holdFrame_flen_toNat (s : State) (d : Byte) {p : Bytes} (hp : p.length ≤ 254) :
    (s.holdFrame d p).flen.toNat = p.length := by
  rw [State.holdFrame_flen, BitVec.toNat_ofNat]
  omega

/-- OLEN after the encoded frame of a payload that FBUF can hold (10_state.md R21). -/
theorem State.putOutput_frame_olen_toNat (s : State) (d : Byte) {p : Bytes} (hp : p.length ≤ 254) :
    (s.putOutput (frameBytes d p)).olen.toNat = p.length + 8 := by
  rw [State.putOutput_olen, frameBytes_length, BitVec.toNat_ofNat]
  omega

end Sys2Proof.Machine

open Sys2Proof Sys2Proof.Machine

/-- Settles O7, from what each allowed host access answers. -/
theorem hostAccessesReadAndWriteWhatTheyName : Obligations.HostAccessesReadAndWriteWhatTheyName := by
  refine ⟨fun s n v rest hp hmem => ?_, fun s v rest hp => ?_, fun s S i v rest hp hi hr => ?_,
    fun s i v rest hp hi => ?_⟩ <;> rw [step_of_cons hp]
  · have hreg : s.register n = some v := by
      have hall : ∀ c ∈ [(1, HostData.byte s.status), (2, .byte s.info), (3, .byte s.result),
          (4, .byte s.action), (5, .word s.ilen), (6, .word s.olen), (7, .byte s.flen),
          (8, .byte s.fdir), (9, .byte s.fsr), (10, .byte s.psr), (11, .byte s.cfg)],
          s.register c.1 = some c.2 := by simp [State.register]
      exact hall _ hmem
    exact regRead_next_iff.mpr ⟨v, hreg, rfl⟩
  · rfl
  · exact hostBufRead_next_iff.mpr ⟨v, State.bufRead_ok.mpr ⟨hi, hr⟩, rfl⟩
  · exact ⟨_, hostBufWrite_next_iff.mpr ⟨rfl, hi, rfl⟩, fun k => Memory.read_write s.ibuf i k v⟩

/-- Settles O8, from the fault of each refused host access. -/
theorem refusedHostAccessesFault : Obligations.RefusedHostAccessesFault := by
  intro s rest
  refine ⟨fun hp => ?_, fun n hn hp => ?_, fun n v hn hp => ?_, fun n v hn h0 h5 hp => ?_,
    fun S i hi hp => ?_, fun S i v hi hp => ?_, fun i v hp => ?_, fun i v hp => ?_⟩ <;>
    rw [step_of_cons hp]
  · exact ⟨.reqRead, rfl⟩
  · exact ⟨_, regRead_fault_of_gt hn _⟩
  · exact ⟨_, regWrite_fault_of_gt hn v _⟩
  · exact ⟨_, regWrite_fault_of_readOnly hn h0 h5 v _⟩
  · exact ⟨_, hostBufRead_fault_of_error ((State.bufRead_eq _ S i).trans (if_pos hi))⟩
  · exact hostBufWrite_fault_of_range hi v _
  · exact ⟨_, hostBufWrite_fault_of_readOnly (by decide) i v _⟩
  · exact ⟨_, hostBufWrite_fault_of_readOnly (by decide) i v _⟩

/-- Settles O9: the three readers of a byte space are the host's read, `operands()` and ENC's operand step. -/
theorem unwrittenBytesFault : Obligations.UnwrittenBytesFault := by
  refine ⟨fun s S i rest hp hi hr => ?_, fun i hi s hl hu => ?_, fun s hv hl hu => ?_⟩
  · rw [step_of_cons hp]
    exact hostBufRead_fault_of_error (State.bufRead_unwritten hi hr)
  · obtain ⟨k, hk⟩ := exec_eq_withOperands hi s
    rw [hk]
    exact withOperands_fault hl hu k
  · exact withFrame_fault hv hl hu _

/-- Settles O10: a read writes `readOut` alone, which no access reads, a write stores the same value again,
and the exchange is open after PS_PRE and closed after PS_POST. -/
theorem readsHaveNoSideEffectAndWritesRepeat : Obligations.ReadsHaveNoSideEffectAndWritesRepeat := by
  refine ⟨fun s t h rest hp hread ht => ?_, fun s t h rest hp hwrite ht => ?_,
    fun s t resp init resp' init' h ht => ?_, fun s t ok stest ok' stest' h _ => ?_⟩
  · rw [step_of_cons hp] at ht
    rw [step_of_cons rfl]
    obtain ⟨n, rfl⟩ | ⟨S, i, rfl⟩ := hread
    · obtain ⟨v, hv, rfl⟩ := regRead_next_iff.mp ht
      exact ⟨rfl, regRead_next_iff.mpr ⟨v, hv, rfl⟩⟩
    · obtain ⟨v, hv, rfl⟩ := hostBufRead_next_iff.mp ht
      exact ⟨rfl, hostBufRead_next_iff.mpr ⟨v, hv, rfl⟩⟩
  · rw [step_of_cons hp] at ht
    rw [step_of_cons rfl]
    obtain ⟨v, rfl⟩ | ⟨S, i, v, rfl⟩ := hwrite
    · cases ht
      rfl
    · obtain ⟨hS, hi, rfl⟩ := hostBufWrite_next_iff.mp ht
      exact hostBufWrite_next_iff.mpr ⟨hS, hi, by simp only [Memory.write_write]⟩
  · exact execPsPre_of_open (execPsPre_opens h ht) resp' init'
  · exact execPsPost_of_closed (execPsPost_closes h) ok' stest'

/-- Settles O42: FBUF and the frame registers are kept, or a frame is held. -/
theorem theHeldFrameChangesOnlyBySuccess : Obligations.TheHeldFrameChangesOnlyBySuccess := by
  intro i s t h
  obtain ⟨hfbuf, hflen, hfdir, hfsr⟩ | ⟨hi, d, p, r, hp, rfl⟩ := exec_frame_cases h
  · exact ⟨by simp [hfbuf, hflen, hfdir, hfsr], fun k _ => by rw [hfbuf], by simp [State.fvalid, hfsr]⟩
  · have hlen := s.holdFrame_flen_toNat d hp
    exact ⟨fun _ => ⟨hi, rfl, by simp⟩, fun k hk => Memory.read_writeRange_of_le (hlen ▸ hk), fun _ => by simp⟩

/-- Settles O43: OBUF and OLEN are kept, or the encoded frame of the held payload is put. -/
theorem theOutputChangesOnlyBySuccessfulEnc : Obligations.TheOutputChangesOnlyBySuccessfulEnc := by
  intro i s t h
  obtain ⟨hobuf, holen⟩ | ⟨rfl, p, ⟨-, hflen, hp, -⟩, rfl⟩ := exec_output_cases h
  · exact ⟨by simp [hobuf, holen], fun _ _ k _ => by rw [hobuf]⟩
  · have hlen := s.putOutput_frame_olen_toNat s.fdir hp
    refine ⟨fun _ => ⟨rfl, rfl, by rw [hflen]; exact hlen⟩, fun _ _ k hk => Memory.read_writeRange_of_le ?_⟩
    rw [frameBytes_length, ← hlen]
    exact hk

end

section
/-! What the decoder makes of every request word (30_encoding.md R54 to R59). -/

namespace Sys2Proof

/-- The OPC of `w` is reserved (R56). -/
abbrev ReservedOpcode (w : Word) : Prop :=
  w.toNat % 256 = 0x00 ∨ (0x07 ≤ w.toNat % 256 ∧ w.toNat % 256 ≤ 0x0F) ∨ 0x14 ≤ w.toNat % 256

/-- A flag bit that the legal OPC of `w` reserves is 1 (R57). -/
abbrev ReservedFlag (w : Word) : Prop :=
  (0x01 ≤ w.toNat % 256 ∧ w.toNat % 256 ≤ 0x05 ∧ w.toNat / 256 ≠ 0) ∨
  (w.toNat % 256 = 0x06 ∧ w.toNat / 1024 ≠ 0) ∨
  ((w.toNat % 256 = 0x10 ∨ w.toNat % 256 = 0x11) ∧ w.toNat / 512 ≠ 0) ∨
  ((w.toNat % 256 = 0x12 ∨ w.toNat % 256 = 0x13) ∧ w.toNat / 1024 ≠ 0)

/-- `w` is DEC with EXP = 3 and no reserved bit (R57). -/
abbrev BadExpect (w : Word) : Prop := w.toNat % 256 = 0x06 ∧ w.toNat / 256 = 3

/-- What each answer of the decoder says of the word it read. -/
def DecodeMeans (w : Word) : Except DecodeError Instr → Prop
  | .ok i => encode i = w
  | .error .badOpcode => ReservedOpcode w
  | .error .reservedFlags => ReservedFlag w
  | .error .badExpect => BadExpect w

theorem opcOf_eq_iff {w : Word} {c : Byte} : opcOf w = c ↔ w.toNat % 256 = c.toNat := by
  rw [← BitVec.toNat_inj, opcOf_toNat]

/-- A field of the flags from bit `i` up is what dividing the word by `2 ^ (8 + i)` leaves. -/
theorem flagsOf_high_toNat (w : Word) {i n : Nat} (hn : i + n = 8) :
    ((flagsOf w).extractLsb' i n).toNat = w.toNat / 256 / 2 ^ i := by
  have hlt : (flagsOf w).toNat < 2 ^ i * 2 ^ n := by
    rw [← Nat.pow_add, hn]
    exact (flagsOf w).isLt
  rw [BitVec.extractLsb'_toNat, Nat.shiftRight_eq_div_pow, flagsOf_toNat,
    Nat.mod_eq_of_lt (Nat.div_lt_of_lt_mul (flagsOf_toNat w ▸ hlt))]

theorem flagsOf_high_eq_zero (w : Word) {i n : Nat} (hn : i + n = 8) :
    (flagsOf w).extractLsb' i n = 0 ↔ w.toNat / 256 / 2 ^ i = 0 := by
  rw [← flagsOf_high_toNat w hn]
  exact BitVec.toNat_eq

theorem flagsOf_bit_toNat (w : Word) (i : Nat) :
    ((flagsOf w).getLsbD i).toNat = w.toNat / 256 / 2 ^ i % 2 := by
  rw [BitVec.getLsbD, Nat.toNat_testBit, flagsOf_toNat]

theorem decodePlain_means {w : Word} {i : Instr} (hw : w.toNat % 256 = (encode i).toNat)
    (hi : 1 ≤ (encode i).toNat ∧ (encode i).toNat ≤ 5) : DecodeMeans w (decodePlain i (flagsOf w)) := by
  have hfl : flagsOf w = 0 ↔ w.toNat / 256 = 0 := by
    rw [← flagsOf_toNat]
    exact BitVec.toNat_eq
  unfold decodePlain
  split_ifs with hf
  · exact BitVec.eq_of_toNat_eq (by have := hfl.mp hf; omega)
  · exact .inl (by have := mt hfl.mpr hf; omega)

theorem decodeFlag_means {w : Word} {mk : Bool → Instr} {c : Nat} (hw : w.toNat % 256 = c)
    (hc : c = 0x10 ∨ c = 0x11) (hmk : ∀ b, (encode (mk b)).toNat = c + 256 * b.toNat) :
    DecodeMeans w (decodeFlag mk (flagsOf w)) := by
  have hfl := flagsOf_high_eq_zero w (i := 1) (n := 7) rfl
  have hb := flagsOf_bit_toNat w 0
  unfold decodeFlag
  split_ifs with hf
  · exact .inr (.inr (.inl (by have := mt hfl.mpr hf; omega)))
  · exact BitVec.eq_of_toNat_eq (by have := hfl.mp (not_not.mp hf); rw [hmk]; omega)

theorem decodeTwoFlags_means {w : Word} {mk : Bool → Bool → Instr} {c : Nat} (hw : w.toNat % 256 = c)
    (hc : c = 0x12 ∨ c = 0x13)
    (hmk : ∀ a b, (encode (mk a b)).toNat = c + 256 * a.toNat + 512 * b.toNat) :
    DecodeMeans w (decodeTwoFlags mk (flagsOf w)) := by
  have hfl := flagsOf_high_eq_zero w (i := 2) (n := 6) rfl
  have ha := flagsOf_bit_toNat w 0
  have hb := flagsOf_bit_toNat w 1
  unfold decodeTwoFlags
  split_ifs with hf
  · exact .inr (.inr (.inr (by have := mt hfl.mpr hf; omega)))
  · exact BitVec.eq_of_toNat_eq (by have := hfl.mp (not_not.mp hf); rw [hmk]; omega)

theorem decodeDec_means {w : Word} (hw : w.toNat % 256 = 0x06) :
    DecodeMeans w (decodeDec (flagsOf w)) := by
  have hfl := flagsOf_high_eq_zero w (i := 2) (n := 6) rfl
  have hexp : (flagsOf w).extractLsb' 0 2 = BitVec.ofNat 2 (w.toNat / 256) := by
    rw [← flagsOf_toNat]
    rfl
  unfold decodeDec
  split_ifs with hf
  · exact .inr (.inl (by have := mt hfl.mpr hf; omega))
  · have hhigh := hfl.mp (not_not.mp hf)
    obtain h | h | h | h : w.toNat / 256 = 0 ∨ w.toNat / 256 = 1 ∨ w.toNat / 256 = 2 ∨
      w.toNat / 256 = 3 := by omega
    · rw [hexp, h]
      exact BitVec.eq_of_toNat_eq (show 0x0006 = w.toNat by omega)
    · rw [hexp, h]
      exact BitVec.eq_of_toNat_eq (show 0x0106 = w.toNat by omega)
    · rw [hexp, h]
      exact BitVec.eq_of_toNat_eq (show 0x0206 = w.toNat by omega)
    · rw [hexp, h]
      exact ⟨hw, h⟩

/-- One test of the decoder's chain, on OPC. -/
theorem DecodeMeans.ite {w : Word} {c : Byte} {a b : Except DecodeError Instr}
    (ha : w.toNat % 256 = c.toNat → DecodeMeans w a) (hb : w.toNat % 256 ≠ c.toNat → DecodeMeans w b) :
    DecodeMeans w (if opcOf w = c then a else b) := by
  by_cases h : opcOf w = c
  · rw [if_pos h]
    exact ha (opcOf_eq_iff.mp h)
  · rw [if_neg h]
    exact hb (mt opcOf_eq_iff.mpr h)

/-- The decoder accepts a word as the operation whose request word it is, or names what is illegal in it
(R56 to R58). -/
theorem decode_means (w : Word) : DecodeMeans w (decode w) := by
  unfold decode
  refine .ite (fun h => decodePlain_means h (by decide)) fun h1 => ?_
  refine .ite (fun h => decodePlain_means h (by decide)) fun h2 => ?_
  refine .ite (fun h => decodePlain_means h (by decide)) fun h3 => ?_
  refine .ite (fun h => decodePlain_means h (by decide)) fun h4 => ?_
  refine .ite (fun h => decodePlain_means h (by decide)) fun h5 => ?_
  refine .ite decodeDec_means fun h6 => ?_
  refine .ite (fun h => decodeFlag_means h (by decide) (by decide)) fun h10 => ?_
  refine .ite (fun h => decodeFlag_means h (by decide) (by decide)) fun h11 => ?_
  refine .ite (fun h => decodeTwoFlags_means h (by decide) (by decide)) fun h12 => ?_
  refine .ite (fun h => decodeTwoFlags_means h (by decide) (by decide)) fun h13 => ?_
  simp only [BitVec.ofNat_eq_ofNat, BitVec.reduceToNat] at *
  exact show ReservedOpcode w by omega

theorem decode_encode (i : Instr) : decode (encode i) = .ok i := by
  cases i with
  | csum | mkcmd | mkdx | enc | ackchk | decD2h | decH2d | decAck => rfl
  | psHard a | psEnable a => cases a <;> rfl
  | psPre a b | psPost a b => cases a <;> cases b <;> rfl

/-- The word of an operation has none of the faults of R56 and R57. -/
theorem encode_legal (i : Instr) :
    ¬ ReservedOpcode (encode i) ∧ ¬ ReservedFlag (encode i) ∧ ¬ BadExpect (encode i) := by
  cases i with
  | csum | mkcmd | mkdx | enc | ackchk | decD2h | decH2d | decAck => decide
  | psHard a | psEnable a => cases a <;> decide
  | psPre a b | psPost a b => cases a <;> cases b <;> decide

theorem not_decodeMeans_encode_error (i : Instr) (e : DecodeError) :
    ¬ DecodeMeans (encode i) (.error e) := by
  obtain ⟨hopc, hflag, hexp⟩ := encode_legal i
  cases e with
  | badOpcode => exact hopc
  | reservedFlags => exact hflag
  | badExpect => exact hexp

/-- The three faults of a word exclude each other. -/
theorem DecodeMeans.error_unique {w : Word} {e e' : DecodeError} (h : DecodeMeans w (.error e))
    (h' : DecodeMeans w (.error e')) : e = e' := by
  cases e <;> cases e' <;> simp only [DecodeMeans, reduceCtorEq] at h h' ⊢ <;> omega

/-- R58: the decoder's answer, as an equivalence for every word and every answer. -/
theorem decode_eq_iff {w : Word} {r : Except DecodeError Instr} : decode w = r ↔ DecodeMeans w r := by
  refine ⟨fun h => h ▸ decode_means w, fun h => ?_⟩
  cases r with
  | ok i => exact h ▸ decode_encode i
  | error e =>
    have hm := decode_means w
    cases hd : decode w with
    | ok i =>
      rw [hd] at hm
      exact absurd (hm ▸ h) (not_decodeMeans_encode_error i e)
    | error e' =>
      rw [hd] at hm
      rw [hm.error_unique h]

end Sys2Proof

namespace Sys2Proof.Machine

theorem issue_of_ok {w : Word} {i : Instr} (h : decode w = .ok i) (s : State) : issue w s = exec i s := by
  rw [issue, h]

theorem issue_of_error {w : Word} {e : DecodeError} (h : decode w = .error e) (s : State) :
    issue w s = .next { s with status := (illegalErr e).status, info := (illegalErr e).info } := by
  rw [issue, h]
  rfl

/-- The next step is the host's write of `w` to REQ (R53). -/
theorem step_of_regWrite_req {s : State} {w : Word} {rest : List HostStep}
    (hp : s.pending = .regWrite 0 w :: rest) : step s = issue w { s with pending := rest } := by
  rw [step_of_cons hp]
  rfl

/-- The next step issues the operation `i` (R53). -/
theorem step_of_issueStep {s : State} {i : Instr} {rest : List HostStep}
    (hp : s.pending = issueStep i :: rest) : step s = exec i { s with pending := rest } := by
  rw [step_of_regWrite_req hp, issue_of_ok (decode_encode i)]

end Sys2Proof.Machine

open Sys2Proof Sys2Proof.Machine

/-- Settles O3, from the equivalence that characterises the decoder. -/
theorem decodeAndEncodeAgree : Obligations.DecodeAndEncodeAgree :=
  ⟨decode_encode, fun _ _ h => decode_eq_iff.mp h⟩

/-- Settles O2: the legal words are the words of the operations, and those are the twenty of R59. -/
theorem exactlyTwentyRequestWordsAreLegal : Obligations.ExactlyTwentyRequestWordsAreLegal := by
  intro w
  constructor
  · rintro ⟨i, hi⟩
    rw [← (decode_eq_iff.mp hi : encode i = w)]
    cases i with
    | csum | mkcmd | mkdx | enc | ackchk | decD2h | decH2d | decAck => decide
    | psHard a | psEnable a => cases a <;> decide
    | psPre a b | psPost a b => cases a <;> cases b <;> decide
  · revert w
    simp only [List.forall_mem_cons, List.not_mem_nil, false_imp_iff, implies_true, and_true]
    exact ⟨⟨_, rfl⟩, ⟨_, rfl⟩, ⟨_, rfl⟩, ⟨_, rfl⟩, ⟨_, rfl⟩, ⟨_, rfl⟩, ⟨_, rfl⟩, ⟨_, rfl⟩, ⟨_, rfl⟩,
      ⟨_, rfl⟩, ⟨_, rfl⟩, ⟨_, rfl⟩, ⟨_, rfl⟩, ⟨_, rfl⟩, ⟨_, rfl⟩, ⟨_, rfl⟩, ⟨_, rfl⟩, ⟨_, rfl⟩,
      ⟨_, rfl⟩, ⟨_, rfl⟩⟩

/-- Settles O4: each clause names the fault for which the decoder reports its cause. -/
theorem illegalWordsReportTheirCauseAndNothingElse :
    Obligations.IllegalWordsReportTheirCauseAndNothingElse := by
  intro s w rest hp
  have report {e : DecodeError} (h : DecodeMeans w (.error e)) :=
    (step_of_regWrite_req hp).trans (issue_of_error (decode_eq_iff.mpr h) _)
  exact ⟨report (e := .badOpcode), report (e := .reservedFlags), report (e := .badExpect)⟩

/-- Settles O1: the twenty words are those of the operations, and the other four have a fault. -/
theorem requestWordsDecodeToTheirOperations : Obligations.RequestWordsDecodeToTheirOperations :=
  ⟨decode_encode .csum, decode_encode .mkcmd, decode_encode .mkdx, decode_encode .enc,
    decode_encode .ackchk, decode_encode .decD2h, decode_encode .decH2d, decode_encode .decAck,
    decode_encode (.psHard false), decode_encode (.psHard true),
    decode_encode (.psEnable false), decode_encode (.psEnable true),
    decode_encode (.psPre false false), decode_encode (.psPre true false),
    decode_encode (.psPre false true), decode_encode (.psPre true true),
    decode_encode (.psPost false false), decode_encode (.psPost true false),
    decode_encode (.psPost false true), decode_encode (.psPost true true),
    decode_eq_iff.mpr (show ReservedOpcode 0x0000 by decide),
    decode_eq_iff.mpr (show ReservedOpcode 0x0114 by decide),
    decode_eq_iff.mpr (show ReservedFlag 0x0706 by decide),
    decode_eq_iff.mpr (show BadExpect 0x0306 by decide)⟩

/-- Settles O5: a write of a legal word to REQ issues its operation, and the fetch aid writes such a word. -/
theorem aStepRunsTheDecodedOperation : Obligations.AStepRunsTheDecodedOperation := by
  refine ⟨fun s w i rest hp hi => (step_of_regWrite_req hp).trans (issue_of_ok hi _), fun s i => ?_⟩
  refine step_of_issueStep (s := s.withFetchWord 16 (encode i).toNat) (rest := s.pending) ?_
  simp [State.withFetchWord, issueStep, Nat.mod_eq_of_lt (encode i).isLt]

end

section
/-! What `classify` accepts (30_encoding.md R60 to R69; 40_frame_codec.md R81). -/

namespace Sys2Proof.Machine

/-! Reading a sequence from its front. -/

theorem exists_append_iff_prefix {b c : Bytes} : (∃ tail, b = c ++ tail) ↔ c <+: b :=
  ⟨fun ⟨tail, h⟩ => ⟨tail, h.symm⟩, fun ⟨tail, h⟩ => ⟨tail, h.symm⟩⟩

theorem slice_zero_eq_iff {b c : Bytes} {n : Nat} (hc : c.length = n + 1) : slice b 0 n = c ↔ c <+: b := by
  rw [List.prefix_iff_eq_take, hc, slice, List.drop_zero, Nat.sub_zero]
  exact eq_comm

theorem slice_append_drop {b : Bytes} {i j : Nat} (h : i ≤ j + 1) :
    slice b i j ++ b.drop (j + 1) = b.drop i := by
  rw [slice, show j + 1 = i + (j + 1 - i) by omega, ← List.drop_drop, Nat.add_sub_cancel_left,
    List.take_append_drop]

theorem drop_eq_byteAt_cons {b : Bytes} {i : Nat} (h : i < b.length) :
    b.drop i = byteAt b i :: b.drop (i + 1) := by
  rw [List.drop_eq_getElem_cons h, byteAt_eq h]

/-! The order of the tests, and the two sentinels. -/

/-- Everything `classify` can do (R81). -/
theorem classify_cases (b : Bytes) :
    (b.length < 6 ∧ classify b = .fail .malformedShort) ∨
    (6 ≤ b.length ∧ ¬ startMarker <+: b ∧ classify b = .fail .malformedStart) ∨
    (ackSeq <+: b ∧ classify b = .ack) ∨
    (nackSeq <+: b ∧ classify b = .nack) ∨
    (6 ≤ b.length ∧ startMarker <+: b ∧ ¬ ackSeq <+: b ∧ ¬ nackSeq <+: b ∧
      classify b = classifyData b) := by
  have hs : slice b 0 2 = startMarker ↔ startMarker <+: b := slice_zero_eq_iff rfl
  have ha : slice b 0 5 = ackSeq ↔ ackSeq <+: b := slice_zero_eq_iff rfl
  have hn : slice b 0 5 = nackSeq ↔ nackSeq <+: b := slice_zero_eq_iff rfl
  unfold classify
  split_ifs with h6 h3 hack hnack
  · exact .inl ⟨h6, rfl⟩
  · exact .inr (.inl ⟨by omega, mt hs.mpr h3, rfl⟩)
  · exact .inr (.inr (.inl ⟨ha.mp hack, rfl⟩))
  · exact .inr (.inr (.inr (.inl ⟨hn.mp hnack, rfl⟩)))
  · exact .inr (.inr (.inr (.inr
      ⟨by omega, hs.mp (not_not.mp h3), mt ha.mpr hack, mt hn.mpr hnack, rfl⟩)))

/-- The tests of a data frame accept exactly when each of them passes. -/
theorem classifyData_data_iff {b : Bytes} {dir : Byte} {p : Bytes} :
    classifyData b = .data dir p ↔
      byteAt b 3 + byteAt b 4 = 0 ∧ byteAt b 3 ≠ 0 ∧ (byteAt b 3).toNat + 7 ≤ b.length ∧
      sum8 (slice b 5 ((byteAt b 3).toNat + 5)) = 0 ∧ byteAt b ((byteAt b 3).toNat + 6) = endMarker ∧
      byteAt b 5 = dir ∧ slice b 6 ((byteAt b 3).toNat + 4) = p := by
  simp only [classifyData]
  split_ifs with h1 h2 h3 h4 h5
  · exact ⟨nofun, fun ⟨hsum, _⟩ => absurd hsum h1⟩
  · exact ⟨nofun, fun ⟨_, hlen, _⟩ => absurd h2 hlen⟩
  · exact ⟨nofun, fun ⟨_, _, hn, _⟩ => absurd h3 (by omega)⟩
  · exact ⟨nofun, fun ⟨_, _, _, hdcs, _⟩ => absurd hdcs h4⟩
  · exact ⟨nofun, fun ⟨_, _, _, _, hpost, _⟩ => absurd hpost h5⟩
  · rw [Classified.data.injEq]
    have hn := not_lt.mp h3
    tauto

theorem classifyData_ne_sentinel (b : Bytes) : classifyData b ≠ .ack ∧ classifyData b ≠ .nack := by
  simp only [classifyData]
  split_ifs <;> simp

theorem classify_ack_iff {b : Bytes} : classify b = .ack ↔ ackSeq <+: b := by
  constructor
  · intro h
    obtain ⟨-, hc⟩ | ⟨-, -, hc⟩ | ⟨hp, -⟩ | ⟨-, hc⟩ | ⟨-, -, -, -, hc⟩ := classify_cases b
    · simp [hc] at h
    · simp [hc] at h
    · exact hp
    · simp [hc] at h
    · exact absurd (hc ▸ h) (classifyData_ne_sentinel b).1
  · rintro ⟨tail, rfl⟩
    rfl

theorem classify_nack_iff {b : Bytes} : classify b = .nack ↔ nackSeq <+: b := by
  constructor
  · intro h
    obtain ⟨-, hc⟩ | ⟨-, -, hc⟩ | ⟨-, hc⟩ | ⟨hp, -⟩ | ⟨-, -, -, -, hc⟩ := classify_cases b
    · simp [hc] at h
    · simp [hc] at h
    · simp [hc] at h
    · exact hp
    · exact absurd (hc ▸ h) (classifyData_ne_sentinel b).2
  · rintro ⟨tail, rfl⟩
    rfl

theorem classify_eq_classifyData {b : Bytes} (h6 : 6 ≤ b.length) (hs : startMarker <+: b)
    (ha : ¬ ackSeq <+: b) (hn : ¬ nackSeq <+: b) : classify b = classifyData b := by
  obtain ⟨hlt, -⟩ | ⟨-, hns, -⟩ | ⟨hp, -⟩ | ⟨hp, -⟩ | ⟨-, -, -, -, hc⟩ := classify_cases b
  · omega
  · exact absurd hs hns
  · exact absurd hp ha
  · exact absurd hp hn
  · exact hc

/-- The ground of R68: in neither sentinel do the bytes in the place of LEN and LCS sum to 0. -/
theorem not_sentinel_of_sum {b : Bytes} (h : byteAt b 3 + byteAt b 4 = 0) :
    ¬ ackSeq <+: b ∧ ¬ nackSeq <+: b := by
  constructor
  · rintro ⟨tail, rfl⟩
    exact absurd h (by decide : (0x00 + 0xFF : Byte) ≠ 0)
  · rintro ⟨tail, rfl⟩
    exact absurd h (by decide : (0xFF + 0x00 : Byte) ≠ 0)

/-- An extended information frame has LEN = LCS = FF, which sum to FE (R69). -/
theorem classify_extended {r : Bytes} (hr : r ≠ []) :
    classify ([0x00, 0x00, 0xFF, 0xFF, 0xFF] ++ r) = .fail .checksumLcs := by
  have hlen := List.length_pos_iff.mpr hr
  have hdata := classify_eq_classifyData (b := [0x00, 0x00, 0xFF, 0xFF, 0xFF] ++ r) (by simp; omega)
    ⟨_, rfl⟩ (by simp [ackSeq]) (by simp [nackSeq])
  exact hdata.trans (if_pos (by decide : (0xFF + 0xFF : Byte) ≠ 0))

/-! The data frames. -/

theorem sum8_singleton (v : Byte) : sum8 [v] = v := BitVec.add_zero v

/-- A sequence with the start marker, cut at the fields of a frame of length byte `l`. -/
theorem frame_fields_append_drop {b : Bytes} {l : Nat} (hs : startMarker <+: b) (hl : 1 ≤ l)
    (hn : l + 7 ≤ b.length) :
    startMarker ++ [byteAt b 3, byteAt b 4, byteAt b 5] ++ slice b 6 (l + 4)
      ++ [byteAt b (l + 5), byteAt b (l + 6)] ++ b.drop (l + 7) = b := by
  calc
    _ = startMarker ++ byteAt b 3 :: byteAt b 4 ::
          (slice b 5 (l + 5) ++ byteAt b (l + 6) :: b.drop (l + 7)) := by
      simp [slice_split hl hn]
    _ = startMarker ++ b.drop 3 := by
      rw [← drop_eq_byteAt_cons (by omega), slice_append_drop (by omega),
        ← drop_eq_byteAt_cons (by omega), ← drop_eq_byteAt_cons (by omega)]
    _ = b := List.prefix_iff_eq_append.mp hs

theorem eq_neg8_of_add {v w : Byte} (h : v + w = 0) : w = neg8 v :=
  BitVec.add_right_inj v |>.mp (h.trans (add_neg8 v).symm)

/-- The frame of R60 from its fields, each checksum fixed by the sum it closes. -/
theorem frameBytes_of_sums {len lcs dir dcs : Byte} {p : Bytes} (hl : len.toNat = p.length + 1)
    (hlcs : len + lcs = 0) (hdcs : sum8 (dir :: (p ++ [dcs])) = 0) :
    startMarker ++ [len, lcs, dir] ++ p ++ [dcs, endMarker] = frameBytes dir p := by
  have hlen : len = BitVec.ofNat 8 (p.length + 1) := by rw [← hl, BitVec.ofNat_toNat, BitVec.setWidth_eq]
  have hsum : sum8 (dir :: p) + dcs = 0 := by
    rwa [← List.cons_append, sum8_append, sum8_singleton] at hdcs
  simp [frameBytes, hlen, eq_neg8_of_add hlcs, eq_neg8_of_add hsum, -sum8_cons]

/-- What the decoder reads of a built frame, whatever follows it. -/
theorem frameBytes_fields (dir : Byte) (p tail : Bytes) :
    byteAt (frameBytes dir p ++ tail) 3 = BitVec.ofNat 8 (p.length + 1) ∧
    byteAt (frameBytes dir p ++ tail) 4 = neg8 (BitVec.ofNat 8 (p.length + 1)) ∧
    byteAt (frameBytes dir p ++ tail) 5 = dir ∧
    byteAt (frameBytes dir p ++ tail) (p.length + 7) = endMarker ∧
    slice (frameBytes dir p ++ tail) 6 (p.length + 5) = p ∧
    slice (frameBytes dir p ++ tail) 5 (p.length + 6) = dir :: (p ++ [neg8 (sum8 (dir :: p))]) := by
  refine ⟨rfl, rfl, rfl, ?_, ?_, ?_⟩
  · simp [byteAt, frameBytes, startMarker]
  · simp [slice, frameBytes, startMarker]
  · simp [slice, frameBytes, startMarker, List.take_append]

/-- A payload of at most 254 bytes is what LEN can express (R61). -/
theorem classifyData_frameBytes (dir : Byte) {p : Bytes} (hp : p.length ≤ 254) (tail : Bytes) :
    classifyData (frameBytes dir p ++ tail) = .data dir p := by
  obtain ⟨h3, h4, h5, h7, hpay, hbody⟩ := frameBytes_fields dir p tail
  have hl : (BitVec.ofNat 8 (p.length + 1)).toNat = p.length + 1 := by
    rw [BitVec.toNat_ofNat]
    omega
  rw [classifyData_data_iff, h3, hl]
  refine ⟨?_, fun h0 => ?_, by simp, ?_, h7, h5, hpay⟩
  · rw [h4, add_neg8]
  · rw [h0] at hl
    exact absurd hl (Nat.succ_ne_zero _).symm
  · rw [hbody, ← List.cons_append, sum8_append, sum8_singleton, add_neg8]

/-- R68: a built frame begins with neither sentinel. -/
theorem frameBytes_not_sentinel (dir : Byte) (p tail : Bytes) :
    ¬ ackSeq <+: frameBytes dir p ++ tail ∧ ¬ nackSeq <+: frameBytes dir p ++ tail := by
  obtain ⟨h3, h4, -⟩ := frameBytes_fields dir p tail
  exact not_sentinel_of_sum (by rw [h3, h4, add_neg8])

/-- A sequence that passes every test of a data frame begins with that frame. -/
theorem frameBytes_prefix_of_classifyData {b : Bytes} {dir : Byte} {p : Bytes} (hs : startMarker <+: b)
    (h : classifyData b = .data dir p) : frameBytes dir p <+: b := by
  obtain ⟨hlcs, hne, hn, hdcs, hpost, rfl, rfl⟩ := classifyData_data_iff.mp h
  have hl : 1 ≤ (byteAt b 3).toNat := Nat.pos_of_ne_zero fun h0 => hne (BitVec.eq_of_toNat_eq h0)
  have hlen : (byteAt b 3).toNat = (slice b 6 ((byteAt b 3).toNat + 4)).length + 1 := by
    rw [slice_length]
    omega
  rw [slice_split hl hn] at hdcs
  rw [← frameBytes_of_sums hlen hlcs hdcs, ← hpost]
  exact ⟨_, frame_fields_append_drop hs hl hn⟩

theorem classify_data_iff {b : Bytes} {dir : Byte} {p : Bytes} :
    classify b = .data dir p ↔ p.length ≤ 254 ∧ frameBytes dir p <+: b := by
  constructor
  · intro h
    obtain ⟨-, hc⟩ | ⟨-, -, hc⟩ | ⟨-, hc⟩ | ⟨-, hc⟩ | ⟨-, hs, -, -, hc⟩ := classify_cases b
    · simp [hc] at h
    · simp [hc] at h
    · simp [hc] at h
    · simp [hc] at h
    · exact ⟨(classify_data_length h).1, frameBytes_prefix_of_classifyData hs (hc ▸ h)⟩
  · rintro ⟨hp, tail, rfl⟩
    obtain ⟨ha, hn⟩ := frameBytes_not_sentinel dir p tail
    rw [classify_eq_classifyData (by simp; omega) (by simp [frameBytes]) ha hn]
    exact classifyData_frameBytes dir hp tail

/-! DEC on an operand that is there. -/

theorem decodeFrame_of_operandIs {s : State} {b : Bytes} (h : OperandIs s b) (exp : Expect) :
    decodeFrame exp s = .next (acceptFrame exp s (classify b)) :=
  withOperands_of_operandIs h _

end Sys2Proof.Machine

open Sys2Proof Sys2Proof.Machine

/-- Settles O18: each of the three answers, as the prefix it needs. -/
theorem decoderAcceptsExactlyTheWireForms : Obligations.DecoderAcceptsExactlyTheWireForms := by
  intro b
  simp only [exists_append_iff_prefix, ← frameBytes_eq_wireFrame]
  exact ⟨fun _ _ => classify_data_iff, classify_ack_iff, classify_nack_iff⟩

/-- Settles O19: an accepted sequence begins with a frame, whose LEN and LCS sum to 0. -/
theorem sentinelsAreNeverDataFrames : Obligations.SentinelsAreNeverDataFrames := by
  intro b dir p h
  obtain ⟨-, tail, rfl⟩ := classify_data_iff.mp h
  obtain ⟨ha, hn⟩ := frameBytes_not_sentinel dir p tail
  refine ⟨⟨_, _, _, rfl, ?_⟩, fun t ht => ha ⟨t, ht.symm⟩, fun t ht => hn ⟨t, ht.symm⟩⟩
  rw [← BitVec.toNat_add, add_neg8]
  rfl

/-- Settles O20: an extended frame fails R81's test of LEN and LCS, and the error frame is R60's frame with
the direction 7F and no payload. -/
theorem otherWireFormsAreRejected : Obligations.OtherWireFormsAreRejected := by
  refine ⟨fun s r hr hop => ?_, fun s hop => ?_⟩
  · have hdec (exp : Expect) : decodeFrame exp s = .next { s with status := 0x01, info := 0x01 } := by
      rw [decodeFrame_of_operandIs hop, classify_extended hr]
      rfl
    rintro i (rfl | rfl | rfl)
    · exact hdec .d2h
    · exact hdec .h2d
    · exact hdec .ack
  · have hdata : classify [0x00, 0x00, 0xFF, 0x01, 0xFF, 0x7F, 0x81, 0x00] = .data 0x7F [] :=
      classify_data_iff.mpr ⟨by simp, [], by decide⟩
    have hdec (exp : Expect) := hdata ▸ decodeFrame_of_operandIs hop exp
    exact ⟨hdec .d2h, hdec .h2d, hdec .ack⟩

end

section
/-! What the pseudo-operations do (30_encoding.md R76, R77), as runs of the host's next steps. -/

namespace Sys2Proof.Machine

/-! Runs (20_memory.md R49). -/

theorem runSteps_cons {n : Nat} {s t : State} (h : step s = .next t) : runSteps (n + 1) s = runSteps n t := by
  simp only [runSteps, h]

theorem runSteps_add {m n : Nat} {s t : State} (h : runSteps m s = .next t) :
    runSteps (m + n) s = runSteps n t := by
  induction m generalizing s with
  | zero =>
    cases h
    rw [Nat.zero_add]
  | succ m ih =>
    rw [Nat.succ_add]
    cases hs : step s with
    | next u =>
      rw [runSteps_cons hs] at h ⊢
      exact ih h
    | fault f => simp [runSteps, hs] at h
    | refused r => simp [runSteps, hs] at h

/-! The host accesses of R76. -/

theorem step_of_wrb {s : State} {i : Nat} {v : Byte} {rest : List HostStep} (hi : i < bufBytes)
    (hp : s.pending = wrb i v :: rest) :
    step s = .next { s with pending := rest, ibuf := Memory.write s.ibuf i v } :=
  (step_of_cons hp).trans (hostBufWrite_next_iff.mpr ⟨rfl, hi, rfl⟩)

theorem step_of_wrlen {s : State} {n : Word} {rest : List HostStep} (hp : s.pending = wrlen n :: rest) :
    step s = .next { s with pending := rest, ilen := n } :=
  step_of_cons hp

theorem step_of_bufRead {s : State} {S : Space} {i : Nat} {v : Byte} {rest : List HostStep}
    (hi : i < S.size) (hr : Memory.read (s.space S) i = some v) (hp : s.pending = .bufRead S i :: rest) :
    step s = .next { s with pending := rest, readOut := some (.byte v) } :=
  (step_of_cons hp).trans (hostBufRead_next_iff.mpr ⟨v, State.bufRead_ok.mpr ⟨hi, hr⟩, rfl⟩)

theorem runSteps_wrbs {s : State} {i : Nat} {b : Bytes} {rest : List HostStep}
    (hi : i + b.length ≤ bufBytes) (hp : s.pending = wrbs i b ++ rest) :
    runSteps (wrbs i b).length s =
      .next { s with pending := rest, ibuf := Memory.writeRange s.ibuf i b } := by
  induction b generalizing s i with
  | nil =>
    subst hp
    rfl
  | cons v b ih =>
    rw [List.length_cons] at hi
    exact (runSteps_cons (step_of_wrb (by omega) hp)).trans (ih (by omega) rfl)

/-- One byte of COPYOUT: its read of OBUF and its write to IBUF. -/
theorem runSteps_copyByte {n i : Nat} {s : State} {v : Byte} {rest : List HostStep} (hi : i < bufBytes)
    (hr : Memory.read s.obuf i = some v) (hp : s.pending = .bufRead .obuf i :: wrb i v :: rest) :
    runSteps (n + 1 + 1) s = runSteps n
      { s with pending := rest, ibuf := Memory.write s.ibuf i v, readOut := some (.byte v) } :=
  (runSteps_cons (step_of_bufRead (S := .obuf) hi hr hp)).trans (runSteps_cons (step_of_wrb hi rfl))

/-- The copied bytes stand in IBUF as after writing them; what the last read returned stays in `readOut`
(log 2). -/
theorem runSteps_copyBytes {s : State} {i : Nat} {b : Bytes} {rest : List HostStep}
    (hi : i + b.length ≤ bufBytes) (hr : ∀ k, k < b.length → Memory.read s.obuf (i + k) = b[k]?)
    (hp : s.pending = copyBytes i b ++ rest) :
    ∃ r, runSteps (copyBytes i b).length s =
      .next { s with pending := rest, ibuf := Memory.writeRange s.ibuf i b, readOut := r } := by
  induction b generalizing s i with
  | nil =>
    subst hp
    exact ⟨_, rfl⟩
  | cons v b ih =>
    rw [List.length_cons] at hi hr
    have hrest (k : Nat) (hk : k < b.length) : Memory.read s.obuf (i + 1 + k) = b[k]? := by
      rw [Nat.add_right_comm, Nat.add_assoc]
      exact hr (k + 1) (by omega)
    obtain ⟨r, hrun⟩ := ih (s := { s with
      pending := copyBytes (i + 1) b ++ rest, ibuf := Memory.write s.ibuf i v, readOut := some (.byte v) })
      (by omega) hrest rfl
    exact ⟨r, (runSteps_copyByte (by omega) (hr 0 (by omega)) hp).trans hrun⟩

/-! LOAD and COPYOUT: bytes written from index 0 on, then their number to ILEN. -/

theorem operandIs_of_stored {m : Memory} {t : State} {b : Bytes} (hb : b.length ≤ 262)
    (hm : t.ibuf = Memory.writeRange m 0 b) (hn : t.ilen = BitVec.ofNat 16 b.length) : OperandIs t b := by
  refine ⟨?_, hb, fun k hk => ?_⟩
  · rw [hn, BitVec.toNat_ofNat]
    omega
  · rw [hm]
    exact (Memory.writeRange_stored m b k).trans (if_pos hk)

theorem runSteps_load {s : State} {b : Bytes} {rest : List HostStep} (hb : b.length ≤ 262)
    (hp : s.pending = load b ++ rest) :
    runSteps (load b).length s = .next { s with
      pending := rest, ibuf := Memory.writeRange s.ibuf 0 b, ilen := BitVec.ofNat 16 b.length } := by
  rw [load, List.append_assoc] at hp
  rw [load, List.length_append, runSteps_add (runSteps_wrbs (by simpa using hb) hp)]
  exact runSteps_cons (step_of_wrlen rfl)

theorem runSteps_copyOut {s : State} {b : Bytes} {rest : List HostStep} (hb : b.length ≤ 262)
    (hh : Holds s.obuf b) (hp : s.pending = copyOut b ++ rest) :
    ∃ r, runSteps (copyOut b).length s = .next { s with
      pending := rest, ibuf := Memory.writeRange s.ibuf 0 b, ilen := BitVec.ofNat 16 b.length,
      readOut := r } := by
  rw [copyOut, List.append_assoc] at hp
  obtain ⟨r, hrun⟩ := runSteps_copyBytes (by simpa using hb) (by simpa using hh) hp
  rw [copyOut, List.length_append, runSteps_add hrun]
  exact ⟨r, runSteps_cons (step_of_wrlen rfl)⟩

/-! FRAME and DXFRAME: LOAD, a build and ENC. -/

theorem buildFrame_of_operandIs {wrap : Bytes → Bytes} {s : State} {b : Bytes} (hop : OperandIs s b)
    (hb : 1 ≤ b.length) (hw : (wrap b).length ≤ s.params.maxPayload.val) :
    buildFrame wrap s = .next (s.holdFrame dirH2d (wrap b)).complete := by
  rw [buildFrame, withOperands_of_operandIs hop, if_neg (by omega), if_neg (by omega)]

theorem execEnc_of_heldFrame {s : State} {p : Bytes} (h : HeldFrameIs s p) :
    execEnc s = .next (s.putOutput (frameBytes s.fdir p)).complete :=
  withFrame_of_heldFrame h _

theorem heldFrameIs_holdFrame (s : State) (d : Byte) {p : Bytes} (hp : p.length ≤ 254) :
    HeldFrameIs (s.holdFrame d p).complete p :=
  ⟨by simp, s.holdFrame_flen_toNat d hp, hp, fun k hk => (Memory.writeRange_stored _ p k).trans (if_pos hk)⟩

theorem step_of_issue_build {i : Instr} {wrap : Bytes → Bytes} (hi : exec i = buildFrame wrap) {s : State}
    {b : Bytes} {rest : List HostStep} (hop : OperandIs s b) (hb : 1 ≤ b.length)
    (hw : (wrap b).length ≤ s.params.maxPayload.val) (hp : s.pending = issueStep i :: rest) :
    step s = .next (State.holdFrame { s with pending := rest } dirH2d (wrap b)).complete := by
  rw [step_of_issueStep hp, hi]
  exact buildFrame_of_operandIs (s := { s with pending := rest }) hop hb hw

/-- Issuing ENC with a frame held puts its wire frame into OBUF (40_frame_codec.md R85). -/
theorem step_of_issue_enc {s : State} {p : Bytes} {rest : List HostStep} (h : HeldFrameIs s p)
    (hp : s.pending = issueStep .enc :: rest) :
    ∃ t, step s = .next t ∧ t.pending = rest ∧ t.status = 0x00 ∧
      t.olen.toNat = p.length + 8 ∧ Holds t.obuf (wireFrame s.fdir p) := by
  have ⟨_, _, hlen, _⟩ := h
  refine ⟨(State.putOutput { s with pending := rest } (frameBytes s.fdir p)).complete, ?_, rfl, rfl, ?_, ?_⟩
  · rw [step_of_issueStep hp]
    exact execEnc_of_heldFrame (s := { s with pending := rest }) h
  · rw [State.complete_olen, State.putOutput_frame_olen_toNat _ _ hlen]
  · rw [← frameBytes_eq_wireFrame]
    exact fun k hk => (Memory.writeRange_stored _ _ k).trans (if_pos hk)

/-- Issuing a build of `wrap b` and then ENC puts the wire frame of `wrap b` into OBUF. -/
theorem runSteps_build_enc {i : Instr} {wrap : Bytes → Bytes} (hi : exec i = buildFrame wrap) {s : State}
    {b : Bytes} {rest : List HostStep} (hop : OperandIs s b) (hb : 1 ≤ b.length)
    (hw : (wrap b).length ≤ s.params.maxPayload.val)
    (hp : s.pending = issueStep i :: issueStep .enc :: rest) :
    ∃ t, runSteps 2 s = .next t ∧ t.pending = rest ∧ t.status = 0x00 ∧
      t.olen.toNat = (wrap b).length + 8 ∧ Holds t.obuf (wireFrame 0xD4 (wrap b)) := by
  have hlen : (wrap b).length ≤ 254 := by omega
  obtain ⟨t, henc, ht⟩ := step_of_issue_enc
    (heldFrameIs_holdFrame { s with pending := issueStep .enc :: rest } dirH2d hlen) rfl
  exact ⟨t, (runSteps_cons (step_of_issue_build hi hop hb hw hp)).trans (runSteps_cons henc), ht⟩

/-- FRAME and DXFRAME alike: LOAD makes the operand that the build takes. -/
theorem runSteps_load_build_enc {i : Instr} {wrap : Bytes → Bytes} (hi : exec i = buildFrame wrap) {s : State}
    {b : Bytes} {rest : List HostStep} (hb : 1 ≤ b.length) (hl : b.length ≤ 262)
    (hw : (wrap b).length ≤ s.params.maxPayload.val)
    (hp : s.pending = load b ++ [issueStep i, issueStep .enc] ++ rest) :
    ∃ t, runSteps (load b ++ [issueStep i, issueStep .enc]).length s = .next t ∧ t.pending = rest ∧
      t.status = 0x00 ∧ t.olen.toNat = (wrap b).length + 8 ∧ Holds t.obuf (wireFrame 0xD4 (wrap b)) := by
  rw [List.append_assoc] at hp
  rw [List.length_append, runSteps_add (runSteps_load hl hp)]
  exact runSteps_build_enc hi (operandIs_of_stored hl rfl rfl) hb hw rfl

end Sys2Proof.Machine

open Sys2Proof Sys2Proof.Machine

/-- Settles O45: LOAD and COPYOUT store their bytes in IBUF and their number in ILEN, and a build and ENC
then take the operand to OBUF. -/
theorem pseudoOperationsHaveTheirEffect : Obligations.PseudoOperationsHaveTheirEffect := by
  refine ⟨fun s b rest hb hp => ?_, fun s b rest hb _ hh hp => ?_, fun s b rest h1 hmax hp => ?_,
    fun s b rest h1 hmax hp => ?_⟩
  · exact ⟨_, runSteps_load hb hp, rfl, operandIs_of_stored hb rfl rfl⟩
  · obtain ⟨r, hrun⟩ := runSteps_copyOut hb hh hp
    exact ⟨_, hrun, rfl, operandIs_of_stored hb rfl rfl⟩
  · exact runSteps_load_build_enc (i := .mkcmd) rfl h1 (by omega) hmax hp
  · exact runSteps_load_build_enc (i := .mkdx) rfl h1 (by omega) hmax hp

end

section
/-! From a build through ENC and a copy of OBUF back to the payload (40_frame_codec.md R88). -/

namespace Sys2Proof.Machine

theorem acceptFrame_data {exp : Expect} (hx : exp ≠ .ack) (s : State) (p : Bytes) :
    acceptFrame exp s (.data exp.direction p) =
      ((s.holdFrame exp.direction p).setResult resultData).complete := by
  simp [acceptFrame, hx]

/-- DEC of the matching expectation takes a built frame, whatever follows it. -/
theorem decodeFrame_of_frame {exp : Expect} (hx : exp ≠ .ack) {s : State} {p tail : Bytes}
    (hp : p.length ≤ 254) (hop : OperandIs s (frameBytes exp.direction p ++ tail)) :
    decodeFrame exp s = .next ((s.holdFrame exp.direction p).setResult resultData).complete := by
  rw [decodeFrame_of_operandIs hop, classify_data_iff.mpr ⟨hp, tail, rfl⟩, acceptFrame_data hx]

theorem exec_enc_of_heldFrame {s : State} {p : Bytes} (h : HeldFrameIs s p) :
    ∃ t, exec .enc s = .next t ∧ t.olen.toNat = p.length + 8 ∧ Holds t.obuf (frameBytes s.fdir p) := by
  have ⟨_, _, hlen, _⟩ := h
  exact ⟨_, execEnc_of_heldFrame h, s.putOutput_frame_olen_toNat s.fdir hlen,
    fun k hk => (Memory.writeRange_stored _ _ k).trans (if_pos hk)⟩

theorem operandIs_of_copy {s t : State} {b : Bytes} (hb : b.length ≤ 262) (hlen : s.olen.toNat = b.length)
    (hh : Holds s.obuf b) (hn : t.ilen = s.olen)
    (hcopy : ∀ k, k < s.olen.toNat → Memory.read t.ibuf k = Memory.read s.obuf k) : OperandIs t b :=
  ⟨by rw [hn, hlen], hb, fun k hk => (hcopy k (hlen ▸ hk)).trans (hh k hk)⟩

/-- R88 for both builds. -/
theorem build_enc_decH2d {i : Instr} {wrap : Bytes → Bytes} (hi : exec i = buildFrame wrap) {s : State}
    {b : Bytes} (hop : OperandIs s b) (hb : 1 ≤ b.length)
    (hw : (wrap b).length ≤ s.params.maxPayload.val) :
    ∃ s1 s2, exec i s = .next s1 ∧ exec .enc s1 = .next s2 ∧
      ∀ s3 : State, s3.ilen = s2.olen →
        (∀ k, k < s2.olen.toNat → Memory.read s3.ibuf k = Memory.read s2.obuf k) →
        ∃ s4, exec .decH2d s3 = .next s4 ∧ s4.status = 0x00 ∧ s4.fdir = 0xD4 ∧
          s4.flen.toNat = (wrap b).length ∧ Holds s4.fbuf (wrap b) := by
  have hp : (wrap b).length ≤ 254 := by omega
  have hbuild : exec i s = .next (s.holdFrame dirH2d (wrap b)).complete := by
    rw [hi, buildFrame_of_operandIs hop hb hw]
  obtain ⟨s2, henc, holen, hobuf⟩ := exec_enc_of_heldFrame (heldFrameIs_holdFrame s dirH2d hp)
  refine ⟨_, s2, hbuild, henc, fun s3 hilen hcopy => ?_⟩
  have hop3 : OperandIs s3 (frameBytes dirH2d (wrap b) ++ []) := by
    rw [List.append_nil]
    exact operandIs_of_copy (by simp; omega) (by simpa using holen) hobuf hilen hcopy
  obtain ⟨-, hflen, -, hfbuf⟩ := heldFrameIs_holdFrame s3 dirH2d hp
  exact ⟨_, decodeFrame_of_frame (exp := .h2d) nofun hp hop3, rfl, rfl, hflen, hfbuf⟩

end Sys2Proof.Machine

open Sys2Proof Sys2Proof.Machine

/-- Settles O22, for both builds at once. -/
theorem buildEncodeDecodeGivesThePayloadBack : Obligations.BuildEncodeDecodeGivesThePayloadBack :=
  ⟨fun _ _ => build_enc_decH2d (i := .mkcmd) (wrap := fun b => b) rfl,
    fun _ _ => build_enc_decH2d (i := .mkdx) (wrap := fun b => cmdDx :: b) rfl⟩

end

section
/-! What `classify` rejects, test by test (40_frame_codec.md R81). -/

namespace Sys2Proof.Machine

/-! Sums modulo 256 as natural numbers (00_scope.md R8). -/

theorem add_eq_zero_iff_toNat {v w : Byte} : v + w = 0 ↔ (v.toNat + w.toNat) % 256 = 0 := by
  rw [BitVec.toNat_eq, BitVec.toNat_add]
  rfl

theorem sum8_eq_zero_iff {b : Bytes} : sum8 b = 0 ↔ sumMod256 b = 0 := by
  rw [← sum8_toNat]
  exact BitVec.toNat_eq

/-! The tests of `classify` in their order (R81). -/

theorem classify_of_short {b : Bytes} (h : b.length < 6) : classify b = .fail .malformedShort :=
  if_pos h

theorem classify_of_noStart {b : Bytes} (h6 : 6 ≤ b.length) (h : ¬ startMarker <+: b) :
    classify b = .fail .malformedStart := by
  obtain ⟨hlt, -⟩ | ⟨-, -, hc⟩ | ⟨hack, -⟩ | ⟨hnack, -⟩ | ⟨-, hs, -⟩ := classify_cases b
  · omega
  · exact hc
  · exact absurd ((by decide : startMarker <+: ackSeq).trans hack) h
  · exact absurd ((by decide : startMarker <+: nackSeq).trans hnack) h
  · exact absurd hs h

/-- LEN and LCS that do not sum to 0 decide, unless they belong to a sentinel. -/
theorem classify_of_badLcs {len lcs : Byte} {r : Bytes} (hr : 1 ≤ r.length)
    (hack : ¬ ackSeq <+: startMarker ++ len :: lcs :: r)
    (hnack : ¬ nackSeq <+: startMarker ++ len :: lcs :: r) (hsum : len + lcs ≠ 0) :
    classify (startMarker ++ len :: lcs :: r) = .fail .checksumLcs :=
  (classify_eq_classifyData (by simp [startMarker]; omega) ⟨_, rfl⟩ hack hnack).trans (if_pos hsum)

/-- LEN and LCS that sum to 0 are in no sentinel (R68), and leave the tests after them. -/
theorem classify_of_lcs {len lcs : Byte} {r : Bytes} (hr : 1 ≤ r.length) (hsum : len + lcs = 0) :
    classify (startMarker ++ len :: lcs :: r) =
      if len = 0 then .fail .malformedZeroLen
      else if r.length + 5 < len.toNat + 7 then .fail .malformedTruncated
      else if sum8 (r.take (len.toNat + 1)) ≠ 0 then .fail .checksumDcs
      else if byteAt r (len.toNat + 1) ≠ endMarker then .fail .malformedPostamble
      else .data (byteAt r 0) (slice r 1 (len.toNat - 1)) := by
  obtain ⟨hack, hnack⟩ := not_sentinel_of_sum (b := startMarker ++ len :: lcs :: r) hsum
  rw [classify_eq_classifyData (by simp [startMarker]; omega) ⟨_, rfl⟩ hack hnack]
  exact if_neg (not_not.mpr hsum)

/-- The last tests, on the bytes `c` from the direction byte to DCS and the byte `post` after them. -/
theorem classify_of_body {len lcs post : Byte} {c tail : Bytes} (hsum : len + lcs = 0) (hne : len ≠ 0)
    (hc : c.length = len.toNat + 1) :
    classify (startMarker ++ len :: lcs :: (c ++ post :: tail)) =
      if sum8 c ≠ 0 then .fail .checksumDcs
      else if post ≠ endMarker then .fail .malformedPostamble
      else .data (byteAt (c ++ post :: tail) 0) (slice (c ++ post :: tail) 1 (len.toNat - 1)) := by
  have htrunc : ¬ (c ++ post :: tail).length + 5 < len.toNat + 7 := by simp; omega
  have hbody : (c ++ post :: tail).take (len.toNat + 1) = c := by simp [← hc]
  have hpost : byteAt (c ++ post :: tail) (len.toNat + 1) = post := by simp [byteAt, ← hc]
  rw [classify_of_lcs (by simp; omega) hsum, if_neg hne, if_neg htrunc, hbody, hpost]

theorem classify_of_dcs {len lcs post : Byte} {c tail : Bytes} (hsum : len + lcs = 0) (hne : len ≠ 0)
    (hc : c.length = len.toNat + 1) (hdcs : sum8 c ≠ 0) :
    classify (startMarker ++ len :: lcs :: (c ++ post :: tail)) = .fail .checksumDcs := by
  rw [classify_of_body hsum hne hc, if_pos hdcs]

theorem classify_of_postamble {len lcs post : Byte} {c tail : Bytes} (hsum : len + lcs = 0) (hne : len ≠ 0)
    (hc : c.length = len.toNat + 1) (hdcs : sum8 c = 0) (hpost : post ≠ endMarker) :
    classify (startMarker ++ len :: lcs :: (c ++ post :: tail)) = .fail .malformedPostamble := by
  rw [classify_of_body hsum hne hc, if_neg (not_not.mpr hdcs), if_pos hpost]

end Sys2Proof.Machine

open Sys2Proof Sys2Proof.Machine

/-- Settles O17; a sequence that passes every test is a built frame and what follows it. -/
theorem classifyTestsInOrder : Obligations.ClassifyTestsInOrder := by
  refine ⟨fun b => classify_of_short, fun b h6 hs => classify_of_noStart h6 fun h => hs ?_,
    fun tail => rfl, fun tail => rfl, fun len lcs r hr hack hnack hsum => ?_,
    fun len lcs r hr hsum => ⟨fun h0 => ?_, fun hne hn => ?_⟩,
    fun len lcs dir post p tail dcs hne hsum hp => ?_⟩
  · exact (List.prefix_iff_eq_take.mp h).symm
  · exact classify_of_badLcs hr (fun ⟨t, ht⟩ => hack t ht.symm) (fun ⟨t, ht⟩ => hnack t ht.symm)
      (mt add_eq_zero_iff_toNat.mp hsum)
  · exact (classify_of_lcs hr (add_eq_zero_iff_toNat.mpr hsum)).trans (if_pos h0)
  · exact (classify_of_lcs hr (add_eq_zero_iff_toNat.mpr hsum)).trans
      ((if_neg hne).trans (if_pos hn))
  · have hlcs := add_eq_zero_iff_toNat.mpr hsum
    have hc : ([dir] ++ p ++ [dcs]).length = len.toNat + 1 := by simp; omega
    have hb : [0x00, 0x00, 0xFF, len, lcs] ++ ([dir] ++ p ++ [dcs]) ++ [post] ++ tail
        = startMarker ++ len :: lcs :: (([dir] ++ p ++ [dcs]) ++ post :: tail) := by simp [startMarker]
    simp only [ne_eq, ← sum8_eq_zero_iff, hb]
    refine ⟨classify_of_dcs hlcs hne hc, classify_of_postamble hlcs hne hc, fun hdcs hpost => ?_⟩
    refine classify_data_iff.mpr ⟨by have := len.isLt; omega, tail, ?_⟩
    rw [← frameBytes_of_sums hp.symm hlcs hdcs, hpost]
    simp [endMarker]

end

section
/-! CSUM, the two builds and ACKCHK (40_frame_codec.md R82 to R84, R86). -/

namespace Sys2Proof.Machine

/-! The IBUF operand (R79), for every operation that takes one. -/

theorem failsOnIlenRange {i : Instr} (hi : i.readsIbuf = true) : FailsOnIlenRange i := by
  intro s h
  obtain ⟨k, hk⟩ := exec_eq_withOperands hi s
  rw [hk]
  exact withOperands_of_range h k

theorem faultsOnUnwrittenOperand {i : Instr} (hi : i.readsIbuf = true) : FaultsOnUnwrittenOperand i := by
  intro s hl hu
  obtain ⟨k, hk⟩ := exec_eq_withOperands hi s
  rw [hk]
  exact withOperands_fault hl hu k

theorem operandIs_nil {s : State} (h : s.ilen = 0) : OperandIs s [] :=
  ⟨congrArg BitVec.toNat h, Nat.zero_le _, fun k hk => absurd hk (Nat.not_lt_zero k)⟩

/-! CSUM (R82). -/

theorem execCsum_of_operandIs {s : State} {b : Bytes} (h : OperandIs s b) :
    execCsum s = .next (s.setResult (neg8 (sum8 b))).complete :=
  withOperands_of_operandIs h _

/-! MKCMD and MKDX (R83, R84). -/

/-- On a payload within the ceiling a build holds a frame to the device. -/
theorem buildsFrame_of_exec {i : Instr} {wrap : Bytes → Bytes} (hi : exec i = buildFrame wrap) :
    BuildsFrame i wrap := by
  intro s b hop hb hw
  rw [hi, buildFrame_of_operandIs hop hb hw, State.holdFrame_eq, setBit_zero_true]
  exact ⟨_, rfl, Memory.writeRange_stored s.fbuf (wrap b)⟩

theorem buildFrame_of_empty (wrap : Bytes → Bytes) {s : State} (h : s.ilen = 0) :
    buildFrame wrap s = .next (s.raise .codec .operandEmpty) :=
  (withOperands_of_operandIs (operandIs_nil h) _).trans (if_pos rfl)

theorem buildFrame_of_tooLarge {wrap : Bytes → Bytes} {s : State} {b : Bytes} (hop : OperandIs s b)
    (hb : b ≠ []) (hw : s.params.maxPayload.val < (wrap b).length) :
    buildFrame wrap s = .next (s.raise .codec .operandTooLarge) :=
  (withOperands_of_operandIs hop _).trans
    ((if_neg (mt List.length_eq_zero_iff.mp hb)).trans (if_pos hw))

/-! ACKCHK (R86). -/

theorem execAckchk_of_operandIs {s : State} {b : Bytes} (h : OperandIs s b) :
    execAckchk s = .next (s.setResult (sentinelResult b)).complete :=
  withOperands_of_operandIs h _

/-- ACKCHK's test of a sentinel, its length included, is that the operand begins with it. -/
theorem sentinelResult_eq (b : Bytes) : sentinelResult b =
    if ackSeq <+: b then resultAck else if nackSeq <+: b then resultNack else resultNone := by
  have htest {c : Bytes} (hc : c.length = 6) : (6 ≤ b.length ∧ slice b 0 5 = c) ↔ c <+: b := by
    rw [slice_zero_eq_iff hc]
    exact and_iff_right_of_imp fun h => hc ▸ h.length_le
  simp only [sentinelResult, htest (c := ackSeq) rfl, htest (c := nackSeq) rfl, resultAck, resultNack,
    resultNone]

theorem not_ack_of_nack {b : Bytes} (hn : nackSeq <+: b) : ¬ ackSeq <+: b := fun ha =>
  absurd (List.prefix_of_prefix_length_le ha hn (by decide)) (by decide)

end Sys2Proof.Machine

open Sys2Proof Sys2Proof.Machine

/-- Settles O11, from the laws of the sum. -/
theorem csumFollowsItsRule : Obligations.CsumFollowsItsRule := by
  refine ⟨decode_encode .csum, rfl, fun s b hop => ?_, failsOnIlenRange rfl, faultsOnUnwrittenOperand rfl,
    by decide, fun b hb => ?_, fun b c hperm => ?_, fun b => ?_, by decide⟩
  · rw [← neg8_sum8]
    exact execCsum_of_operandIs hop
  · rw [hb]
    rfl
  · rw [← neg8_sum8, ← neg8_sum8, sum8_perm hperm]
  · rw [← sum8_eq_zero_iff, sum8_append, sum8_singleton, ← neg8_sum8, add_neg8]

/-- Settles O12, from what a build answers. -/
theorem mkcmdFollowsItsRule : Obligations.MkcmdFollowsItsRule :=
  ⟨decode_encode .mkcmd, rfl, buildsFrame_of_exec rfl, failsOnIlenRange rfl, faultsOnUnwrittenOperand rfl,
    fun _ => buildFrame_of_empty _, fun _ _ => buildFrame_of_tooLarge (wrap := fun b => b)⟩

/-- Settles O13, from what a build answers. -/
theorem mkdxFollowsItsRule : Obligations.MkdxFollowsItsRule :=
  ⟨decode_encode .mkdx, rfl, buildsFrame_of_exec rfl, failsOnIlenRange rfl, faultsOnUnwrittenOperand rfl,
    fun _ => buildFrame_of_empty _,
    fun _ _ => buildFrame_of_tooLarge (wrap := fun b => cmdDx :: b), by decide⟩

/-- Settles O15: ACKCHK asks which sentinel the operand begins with, and it cannot begin with both. -/
theorem ackchkFollowsItsRule : Obligations.AckchkFollowsItsRule := by
  refine ⟨decode_encode .ackchk, rfl, fun s b hop => ?_, failsOnIlenRange rfl, faultsOnUnwrittenOperand rfl⟩
  have hexec : exec .ackchk s = _ := execAckchk_of_operandIs hop
  simp only [exists_append_iff_prefix, ← not_exists]
  rw [hexec, sentinelResult_eq]
  refine ⟨fun (hack : ackSeq <+: b) => ?_, fun (hnack : nackSeq <+: b) => ?_,
    fun (hack : ¬ ackSeq <+: b) (hnack : ¬ nackSeq <+: b) => ?_⟩
  · rw [if_pos hack]
    rfl
  · rw [if_neg (not_ack_of_nack hnack), if_pos hnack]
    rfl
  · rw [if_neg hack, if_neg hnack]
    rfl

end

section
/-! What DEC answers for each expectation and each outcome of `classify` (40_frame_codec.md R87). -/

namespace Sys2Proof.Machine

theorem readsIbuf_dec {i : Instr} (hi : i = .decD2h ∨ i = .decH2d ∨ i = .decAck) : i.readsIbuf = true := by
  obtain rfl | rfl | rfl := hi <;> rfl

/-- DEC on an operand that is there, whatever its expectation. -/
theorem exec_dec_of_operandIs {i : Instr} (hi : i = .decD2h ∨ i = .decH2d ∨ i = .decAck) {s : State}
    {b : Bytes} (hop : OperandIs s b) : ∃ exp, exec i s = .next (acceptFrame exp s (classify b)) := by
  obtain rfl | rfl | rfl := hi
  · exact ⟨.d2h, decodeFrame_of_operandIs hop .d2h⟩
  · exact ⟨.h2d, decodeFrame_of_operandIs hop .h2d⟩
  · exact ⟨.ack, decodeFrame_of_operandIs hop .ack⟩

theorem exec_dec_of_fail {i : Instr} (hi : i = .decD2h ∨ i = .decH2d ∨ i = .decAck) {s : State} {b : Bytes}
    {e : Err} (hop : OperandIs s b) (hc : classify b = .fail e) : exec i s = .next (s.raise .codec e) := by
  obtain ⟨exp, hexec⟩ := exec_dec_of_operandIs hi hop
  rw [hexec, hc]
  rfl

theorem decodesFrame_of_direction {exp : Expect} (hx : exp ≠ .ack) {i : Instr}
    (hi : exec i = decodeFrame exp) {s : State} {b p : Bytes} (hop : OperandIs s b)
    (hc : classify b = .data exp.direction p) : DecodesFrame i s exp.direction p := by
  unfold DecodesFrame
  rw [hi, decodeFrame_of_operandIs hop, hc, acceptFrame_data hx, State.holdFrame_eq, setBit_zero_true]
  exact ⟨_, rfl, Memory.writeRange_stored s.fbuf p⟩

theorem decodeFrame_of_otherDirection {exp : Expect} (hx : exp ≠ .ack) {s : State} {b p : Bytes} {dir : Byte}
    (hop : OperandIs s b) (hc : classify b = .data dir p) (hdir : dir ≠ exp.direction) :
    decodeFrame exp s = .next (s.raise .codec .unexpectedDir) := by
  rw [decodeFrame_of_operandIs hop, hc, acceptFrame, if_neg hx, if_pos hdir]

/-- The numbers of the failures of `classify` (30_encoding.md R70, R71). -/
theorem classify_fail_codes {b : Bytes} {e : Err} (h : classify b = .fail e) :
    (e, e.status, e.info) ∈ ([(.malformedShort, 0x02, 0x01), (.malformedStart, 0x02, 0x02),
      (.malformedZeroLen, 0x02, 0x03), (.malformedTruncated, 0x02, 0x04), (.malformedPostamble, 0x02, 0x05),
      (.checksumLcs, 0x01, 0x01), (.checksumDcs, 0x01, 0x02)] : List (Err × Byte × Byte)) := by
  obtain rfl | rfl | rfl | rfl | rfl | rfl | rfl := classify_fail_kind h <;> decide

end Sys2Proof.Machine

open Sys2Proof Sys2Proof.Machine

/-- Settles O16, by the outcome of `classify`. -/
theorem decFollowsItsRule : Obligations.DecFollowsItsRule := by
  refine ⟨decode_encode .decD2h, decode_encode .decH2d, decode_encode .decAck, rfl, rfl, rfl, rfl,
    fun i hi => ?_, fun s b hop => ⟨fun e hc => ?_, fun hc => ?_, fun hc i hi => ?_, fun dir p hc => ?_⟩,
    fun dir p tail hp => ?_, ?_, ?_⟩
  · exact ⟨failsOnIlenRange (readsIbuf_dec hi), faultsOnUnwrittenOperand (readsIbuf_dec hi)⟩
  · exact ⟨e.status, e.info, classify_fail_codes hc, fun i hi => exec_dec_of_fail hi hop hc⟩
  · have hdec (exp : Expect) := hc ▸ decodeFrame_of_operandIs hop exp
    exact ⟨hdec .ack, hdec .d2h, hdec .h2d⟩
  · obtain ⟨exp, hexec⟩ := exec_dec_of_operandIs hi hop
    rw [hexec, hc]
    rfl
  · have hack := hc ▸ decodeFrame_of_operandIs hop .ack
    refine ⟨hack, fun hdir => ?_, decodeFrame_of_otherDirection (exp := .d2h) nofun hop hc, fun hdir => ?_,
      decodeFrame_of_otherDirection (exp := .h2d) nofun hop hc⟩
    · subst hdir
      exact decodesFrame_of_direction (exp := .d2h) nofun rfl hop hc
    · subst hdir
      exact decodesFrame_of_direction (exp := .h2d) nofun rfl hop hc
  · exact classify_data_iff.mpr ⟨hp, tail, by rw [frameBytes_eq_wireFrame]⟩
  · exact classify_data_iff.mpr ⟨by decide, [], by decide⟩
  · exact classify_data_iff.mpr ⟨by decide, [], by decide⟩

end

section
/-! The fields of a built frame (30_encoding.md R60): its checksum identities, and one byte of it changed
(40_frame_codec.md R89, R90). -/

namespace Sys2Proof.Machine

/-- The bytes of a frame that DCS covers, with DCS: direction byte, payload, DCS (30_encoding.md R60). -/
def frameBody (dir : Byte) (p : Bytes) : Bytes := dir :: (p ++ [neg8 (sum8 (dir :: p))])

@[simp] theorem frameBody_length (dir : Byte) (p : Bytes) : (frameBody dir p).length = p.length + 2 := by
  simp [frameBody]

@[simp] theorem sum8_frameBody (dir : Byte) (p : Bytes) : sum8 (frameBody dir p) = 0 := by
  rw [frameBody, ← List.cons_append, sum8_append, sum8_singleton, add_neg8]

/-- A built frame as the tests of `classify` cut it. -/
theorem frameBytes_eq_fields (dir : Byte) (p : Bytes) :
    frameBytes dir p = startMarker ++ BitVec.ofNat 8 (p.length + 1) ::
      neg8 (BitVec.ofNat 8 (p.length + 1)) :: (frameBody dir p ++ [endMarker]) := by
  simp [frameBytes, frameBody]

/-- A payload of at most 254 bytes is what LEN can express (R61). -/
theorem lenByte_toNat {p : Bytes} (hp : p.length ≤ 254) :
    (BitVec.ofNat 8 (p.length + 1)).toNat = p.length + 1 := by
  rw [BitVec.toNat_ofNat]
  omega

theorem lenByte_ne_zero {p : Bytes} (hp : p.length ≤ 254) : BitVec.ofNat 8 (p.length + 1) ≠ (0 : Byte) := by
  intro h0
  have := lenByte_toNat hp
  simp [h0] at this

theorem not_sentinel_of_dir {len lcs dir : Byte} (r : Bytes) (hdir : dir ≠ 0) :
    ¬ ackSeq <+: startMarker ++ len :: lcs :: dir :: r ∧
      ¬ nackSeq <+: startMarker ++ len :: lcs :: dir :: r := by
  have hdir' : (0x00 : Byte) ≠ dir := hdir.symm
  constructor <;> rintro ⟨tail, h⟩ <;> exact hdir' (congrArg (byteAt · 5) h)

section
variable {dir v : Byte} {p : Bytes} {k : Nat}

theorem classify_set_start (hk : k ≤ 2) (hv : (frameBytes dir p)[k]? ≠ some v) :
    classify ((frameBytes dir p).set k v) = .fail .malformedStart := by
  refine classify_of_noStart (by simp) fun hs => hv ?_
  have hmarker {b : Bytes} (h : startMarker <+: b) : b[k]? = startMarker[k]? := by
    obtain ⟨t, rfl⟩ := h
    exact List.getElem?_append_left (Nat.lt_succ_of_le hk)
  calc
    (frameBytes dir p)[k]? = startMarker[k]? := hmarker ⟨_, (frameBytes_eq_fields dir p).symm⟩
    _ = ((frameBytes dir p).set k v)[k]? := (hmarker hs).symm
    _ = some v := List.getElem?_set_self (by simp; omega)

theorem classify_set_len (hdir : dir ≠ 0) (hv : (frameBytes dir p)[3]? ≠ some v) :
    classify ((frameBytes dir p).set 3 v) = .fail .checksumLcs := by
  rw [frameBytes_eq_fields] at *
  obtain ⟨hack, hnack⟩ := not_sentinel_of_dir _ hdir
  refine classify_of_badLcs (by simp) hack hnack fun h => hv (congrArg some ?_)
  exact ((BitVec.add_left_inj _).mp (h.trans (add_neg8 _).symm)).symm

theorem classify_set_lcs (hdir : dir ≠ 0) (hv : (frameBytes dir p)[4]? ≠ some v) :
    classify ((frameBytes dir p).set 4 v) = .fail .checksumLcs := by
  rw [frameBytes_eq_fields] at *
  obtain ⟨hack, hnack⟩ := not_sentinel_of_dir _ hdir
  exact classify_of_badLcs (by simp) hack hnack fun h => hv (congrArg some (eq_neg8_of_add h).symm)

theorem frameBytes_getElem?_body (hk : k < p.length + 2) :
    (frameBytes dir p)[k + 5]? = (frameBody dir p)[k]? := by
  rw [frameBytes_eq_fields]
  exact List.getElem?_append_left (l₁ := frameBody dir p) (by simpa using hk)

theorem classify_set_body (hp : p.length ≤ 254) (hk : k < p.length + 2)
    (hv : (frameBytes dir p)[k + 5]? ≠ some v) :
    classify ((frameBytes dir p).set (k + 5) v) = .fail .checksumDcs := by
  have hk' : k < (frameBody dir p).length := (frameBody_length dir p).symm ▸ hk
  have hset : (frameBytes dir p).set (k + 5) v = startMarker ++ BitVec.ofNat 8 (p.length + 1) ::
      neg8 (BitVec.ofNat 8 (p.length + 1)) :: ((frameBody dir p).set k v ++ [endMarker]) := by
    rw [frameBytes_eq_fields, ← List.set_append_left _ _ hk']
    rfl
  rw [frameBytes_getElem?_body hk, List.getElem?_eq_getElem hk'] at hv
  rw [hset]
  refine classify_of_dcs (add_neg8 _) (lenByte_ne_zero hp) (by simp [lenByte_toNat hp]) ?_
  rw [← sum8_frameBody dir p]
  exact sum8_set_ne hk' fun h => hv (congrArg some h.symm)

theorem classify_set_postamble (hp : p.length ≤ 254) (hv : (frameBytes dir p)[p.length + 7]? ≠ some v) :
    classify ((frameBytes dir p).set (p.length + 7) v) = .fail .malformedPostamble := by
  have hget : (frameBytes dir p)[p.length + 7]? = some endMarker := by
    rw [frameBytes_eq_fields]
    exact (List.getElem?_append_right (l₁ := frameBody dir p) (i := p.length + 2) (by simp)).trans (by simp)
  have hset : (frameBytes dir p).set (p.length + 7) v = startMarker ++ BitVec.ofNat 8 (p.length + 1) ::
      neg8 (BitVec.ofNat 8 (p.length + 1)) :: (frameBody dir p ++ [v]) := by
    have : (frameBody dir p ++ [endMarker]).set (p.length + 2) v = frameBody dir p ++ [v] := by
      rw [List.set_append_right _ _ (by simp)]
      simp
    rw [frameBytes_eq_fields, ← this]
    rfl
  rw [hset]
  refine classify_of_postamble (add_neg8 _) (lenByte_ne_zero hp) (by simp [lenByte_toNat hp])
    (sum8_frameBody dir p) fun h => hv ?_
  rw [hget, h]

end

end Sys2Proof.Machine

open Sys2Proof Sys2Proof.Machine

/-- Settles O23, by the field the changed byte is in. -/
theorem singleByteCorruptionIsRejected : Obligations.SingleByteCorruptionIsRejected := by
  intro i dir hi p k v s hp hk hv hop
  rw [← frameBytes_eq_wireFrame] at hv hop
  have hdir : dir ≠ 0 := by obtain ⟨-, rfl⟩ | ⟨-, rfl⟩ := hi <;> decide
  have hdec {e : Err} (hc : classify ((frameBytes dir p).set k v) = .fail e) :=
    exec_dec_of_fail (by tauto : i = .decD2h ∨ i = .decH2d ∨ i = .decAck) hop hc
  refine ⟨fun hk => hdec (classify_set_start hk hv), ?_, fun h5 h6 => ?_, ?_⟩
  · rintro (rfl | rfl)
    · exact hdec (classify_set_len hdir hv)
    · exact hdec (classify_set_lcs hdir hv)
  · obtain ⟨j, rfl⟩ := Nat.exists_eq_add_of_le' h5
    exact hdec (classify_set_body hp (by omega) hv)
  · rintro rfl
    exact hdec (classify_set_postamble hp hv)

/-- Settles O21: DCS and LCS are the negations CSUM computes. -/
theorem encodedFramesMeetTheChecksumIdentities : Obligations.EncodedFramesMeetTheChecksumIdentities := by
  intro dir p hp
  have hbody : ((frameBytes dir p).drop 5).take (p.length + 2) = frameBody dir p := by
    rw [frameBytes_eq_fields]
    exact (List.take_append_of_le_length (by simp)).trans (by simp)
  have hresult {s t : State} {b : Bytes} (hop : OperandIs s b) (h : exec .csum s = .next t) :
      t.result = neg8 (sum8 b) := by
    cases h.symm.trans (execCsum_of_operandIs hop)
    rfl
  refine ⟨⟨_, _, rfl, rfl, lenByte_toNat hp, ?_⟩, ?_, fun s t hop h => ?_, fun s t hop h => ?_⟩
  · exact add_eq_zero_iff_toNat.mp (add_neg8 _)
  · rw [hbody, ← sum8_eq_zero_iff, sum8_frameBody]
  · rw [hresult hop h]
    simp [frameBytes, startMarker]
  · rw [hresult hop h, sum8_singleton]
    rfl

end

section
/-! ENC (40_frame_codec.md R85). -/

namespace Sys2Proof.Machine

/-- Storing the same bytes again changes no byte. -/
theorem Memory.read_writeRange_writeRange (m : Memory) (b : Bytes) (k : Nat) :
    Memory.read (Memory.writeRange (Memory.writeRange m 0 b) 0 b) k
      = Memory.read (Memory.writeRange m 0 b) k := by
  rw [Memory.writeRange_stored _ b k, Memory.writeRange_stored m b k]
  split_ifs <;> rfl

/-- ENC keeps the held frame, so a repeat puts the same bytes. -/
theorem execEnc_repeat {s : State} {p : Bytes} (hp : HeldFrameIs s p) :
    ∃ u, exec .enc (s.putOutput (frameBytes s.fdir p)).complete = .next u ∧
      u.olen = (s.putOutput (frameBytes s.fdir p)).olen ∧
      ∀ k, Memory.read u.obuf k = Memory.read (s.putOutput (frameBytes s.fdir p)).obuf k := by
  have hagain : HeldFrameIs (s.putOutput (frameBytes s.fdir p)).complete p := hp
  refine ⟨_, execEnc_of_heldFrame hagain, rfl, fun k => ?_⟩
  simp only [State.complete_obuf, State.putOutput_obuf, State.complete_fdir, State.putOutput_fdir,
    Memory.read_writeRange_writeRange]

end Sys2Proof.Machine

open Sys2Proof Sys2Proof.Machine

/-- Settles O14; DEC.D2H holds the device's payload alone, so ENC builds its frame without what followed it. -/
theorem encFollowsItsRule : Obligations.EncFollowsItsRule := by
  refine ⟨decode_encode .enc, rfl, fun s p hp => ?_, fun s hv => withFrame_of_noFrame hv _,
    fun s t h hok => ?_, fun s t p tail hp hop h => ?_, fun dir => ?_, by decide⟩
  · rw [← frameBytes_eq_wireFrame, ← frameBytes_length s.fdir p]
    have henc : exec .enc s = _ := execEnc_of_heldFrame hp
    rw [henc, State.putOutput_eq]
    exact ⟨_, rfl, Memory.writeRange_stored s.obuf _⟩
  · obtain ⟨-, rfl⟩ | ⟨p, hp, rfl⟩ := execEnc_cases h
    · exact absurd hok (Err.status_ne_ok .sequenceNoFrame)
    · exact execEnc_repeat hp
  · rw [← frameBytes_eq_wireFrame] at hop ⊢
    cases h.symm.trans (decodeFrame_of_frame (exp := .d2h) nofun hp hop)
    exact exec_enc_of_heldFrame (heldFrameIs_holdFrame s dirD2h hp)
  · rw [← frameBytes_eq_wireFrame, frameBytes, sum8_singleton, neg8_eq dir]
    rfl

end

section
/-! No codec operation reads or writes the power state or CFG (40_frame_codec.md R92). -/

namespace Sys2Proof.Machine

theorem withFrame_of_error {s : State} {f : Fault} (hv : s.fvalid = true)
    (hf : s.memRead .fbuf 0 s.flen.toNat = .error f) (k : Bytes → Answer) : withFrame s k = .fault f := by
  simp [withFrame, hv, hf]

/-- `s` with another PSR, ACTION and CFG. -/
def State.withPower (psr action cfg : Byte) (s : State) : State :=
  { s with psr := psr, action := action, cfg := cfg }

section
variable (psr action cfg : Byte)

theorem bufRead_withPower (s : State) (S : Space) (i : Nat) :
    (s.withPower psr action cfg).bufRead S i = s.bufRead S i := by
  cases S <;> rfl

theorem memRead_withPower (s : State) (S : Space) (i n : Nat) :
    (s.withPower psr action cfg).memRead S i n = s.memRead S i n := by
  induction n generalizing i with
  | zero => rfl
  | succ n ih => simp only [State.memRead, bufRead_withPower, ih]

theorem withOperands_withPower {k k' : Bytes → Answer}
    (hk : ∀ b, k' b = mapNext (State.withPower psr action cfg) (k b)) (s : State) :
    withOperands (s.withPower psr action cfg) k' =
      mapNext (State.withPower psr action cfg) (withOperands s k) := by
  obtain ⟨hl, hw⟩ | ⟨n, hl, hn, hr, hlow, hw⟩ | ⟨b, hb, hw⟩ := withOperands_cases s k <;> rw [hw]
  · exact withOperands_of_range (s := s.withPower psr action cfg) hl k'
  · exact withOperands_of_unwritten (s := s.withPower psr action cfg) hl hn hr hlow k'
  · rw [← hk]
    exact withOperands_of_operandIs (s := s.withPower psr action cfg) hb k'

theorem withFrame_withPower {k k' : Bytes → Answer}
    (hk : ∀ p, k' p = mapNext (State.withPower psr action cfg) (k p)) (s : State) :
    withFrame (s.withPower psr action cfg) k' =
      mapNext (State.withPower psr action cfg) (withFrame s k) := by
  obtain ⟨hv, hw⟩ | ⟨hv, f, hf, hw⟩ | ⟨p, hp, hw⟩ := withFrame_cases s k <;> rw [hw]
  · exact withFrame_of_noFrame (s := s.withPower psr action cfg) hv k'
  · exact withFrame_of_error (s := s.withPower psr action cfg) hv
      ((memRead_withPower psr action cfg s .fbuf 0 s.flen.toNat).trans hf) k'
  · rw [← hk]
    exact withFrame_of_heldFrame (s := s.withPower psr action cfg) hp k'

theorem buildFrame_withPower (wrap : Bytes → Bytes) (s : State) :
    buildFrame wrap (s.withPower psr action cfg) =
      mapNext (State.withPower psr action cfg) (buildFrame wrap s) := by
  refine withOperands_withPower psr action cfg (fun b => ?_) s
  rw [apply_ite (mapNext _), apply_ite (mapNext _)]
  rfl

theorem acceptFrame_withPower (exp : Expect) (s : State) (c : Classified) :
    acceptFrame exp (s.withPower psr action cfg) c =
      (acceptFrame exp s c).withPower psr action cfg := by
  cases c with
  | fail e => rfl
  | nack => rfl
  | ack =>
    rw [acceptFrame, acceptFrame, apply_ite (State.withPower _ _ _)]
    rfl
  | data dir p =>
    rw [acceptFrame, acceptFrame, apply_ite (State.withPower _ _ _), apply_ite (State.withPower _ _ _)]
    rfl

theorem decodeFrame_withPower (exp : Expect) (s : State) :
    decodeFrame exp (s.withPower psr action cfg) =
      mapNext (State.withPower psr action cfg) (decodeFrame exp s) :=
  withOperands_withPower psr action cfg
    (fun b => congrArg Host.Outcome.next (acceptFrame_withPower psr action cfg exp s (classify b))) s

/-- A codec operation answers the same whatever PSR, ACTION and CFG, those aside. -/
theorem exec_codec_withPower {i : Instr} (hi : i.isCodec = true) (s : State) :
    exec i (s.withPower psr action cfg) = mapNext (State.withPower psr action cfg) (exec i s) := by
  cases i with
  | csum | ackchk =>
    refine withOperands_withPower psr action cfg (fun _ => ?_) s
    rfl
  | mkcmd | mkdx => exact buildFrame_withPower psr action cfg _ s
  | enc =>
    refine withFrame_withPower psr action cfg (fun _ => ?_) s
    rfl
  | decD2h | decH2d | decAck => exact decodeFrame_withPower psr action cfg _ s
  | psHard | psEnable | psPre | psPost => cases hi

end

theorem exec_codec_action {i : Instr} {s t : State} (hi : i.isCodec = true) (h : exec i s = .next t) :
    t.action = s.action := by
  obtain ⟨e, -, rfl⟩ | ⟨-, v, rfl⟩ | ⟨-, d, p, r, -, -, rfl⟩ | ⟨-, p, -, rfl⟩ :=
    exec_codec_cases hi h <;> rfl

end Sys2Proof.Machine

open Sys2Proof Sys2Proof.Machine

/-- Settles O24, from the frame of the codec operations and their commuting with another power state. -/
theorem codecIgnoresAndKeepsThePowerState : Obligations.CodecIgnoresAndKeepsThePowerState := by
  refine fun i s hi => ⟨fun t h => ?_, fun psr action cfg => exec_codec_withPower psr action cfg hi s⟩
  obtain ⟨hcfg, -, hibuf, hilen⟩ := exec_host_side h
  exact ⟨exec_codec_psr hi h, exec_codec_action hi h, hcfg, hibuf, hilen⟩

end

section
/-! How the host reports a codec outcome in each stage (40_frame_codec.md R93; 60_exceptions.md R111). -/

namespace Sys2Proof.Machine

theorem State.raise_succeeded (s : State) (f : Family) (e : Err) : (s.raise f e).succeeded = false :=
  decide_eq_false e.status_ne_ok

/-- In the ACK stage a failed operation has not seen an ACK, whatever RESULT holds. -/
theorem hostReport_ack_of_failed {i : Instr} (hi : i = .decAck ∨ i = .ackchk) {t : State}
    (h : t.succeeded = false) : hostReport .ackStage i t = .transmissionFailure := by
  obtain rfl | rfl := hi <;> simp [hostReport, ackReport, h]

theorem acceptFrame_ack_succeeded (s : State) (b : Bytes) :
    (acceptFrame .ack s (classify b)).succeeded = decide (ackSeq <+: b) := by
  refine decide_eq_decide.mpr (Iff.trans ?_ classify_ack_iff)
  cases classify b with
  | ack => exact iff_of_true rfl rfl
  | nack => exact iff_of_false (Err.status_ne_ok .unexpectedSawNack) nofun
  | data d p => exact iff_of_false (Err.status_ne_ok .unexpectedSawData) nofun
  | fail e => exact iff_of_false e.status_ne_ok nofun

theorem sentinelResult_eq_resultAck (b : Bytes) : sentinelResult b = resultAck ↔ ackSeq <+: b := by
  rw [sentinelResult_eq]
  split_ifs with hack hnack <;> simp [hack, resultAck, resultNack, resultNone]

/-- In the ACK stage DEC.ACK and ACKCHK report the operand's ACK sentinel. -/
theorem hostReport_ack_of_operandIs {i : Instr} (hi : i = .decAck ∨ i = .ackchk) {s : State} {b : Bytes}
    (hop : OperandIs s b) :
    ∃ t, exec i s = .next t ∧ hostReport .ackStage i t = ackReport (decide (ackSeq <+: b)) := by
  obtain rfl | rfl := hi
  · exact ⟨_, decodeFrame_of_operandIs hop .ack, congrArg ackReport (acceptFrame_ack_succeeded s b)⟩
  · exact ⟨_, execAckchk_of_operandIs hop,
      congrArg ackReport (decide_eq_decide.mpr (sentinelResult_eq_resultAck b))⟩

theorem hostReport_response {i : Instr} (hi : i = .decD2h ∨ i = .decH2d ∨ i = .decAck) (t : State) :
    hostReport .responseStage i t = responseReport t := by
  obtain rfl | rfl | rfl := hi <;> rfl

theorem StatusCode.report_of_frameError {c : StatusCode} (h : c.cls = .frameError) :
    c.report .responseStage = .frameError ∧ c.report .ackStage = .transmissionFailure := by
  simp [StatusCode.report, h]

end Sys2Proof.Machine

open Sys2Proof Sys2Proof.Machine

/-- Settles O50, stage by stage. -/
theorem hostReportsFollowTheStage : Obligations.HostReportsFollowTheStage := by
  refine ⟨fun s b i hi hop => ?_, fun s i hi hl => ?_, fun s t i hi _ => ?_, rfl, rfl, fun c hc => ?_⟩
  · obtain ⟨t, hexec, hreport⟩ := hostReport_ack_of_operandIs hi hop
    have hack : (∃ tail, b = [0x00, 0x00, 0xFF, 0x00, 0xFF, 0x00] ++ tail) ↔ ackSeq <+: b :=
      exists_append_iff_prefix
    rw [← not_exists, hack]
    exact ⟨t, hexec, fun h => by rw [hreport, decide_eq_true h]; rfl,
      fun h => by rw [hreport, decide_eq_false h]; rfl⟩
  · have hreads : i.readsIbuf = true := by obtain rfl | rfl := hi <;> rfl
    exact ⟨_, failsOnIlenRange hreads s hl,
      hostReport_ack_of_failed hi (s.raise_succeeded .codec .operandIlenRange)⟩
  · rw [hostReport_response hi]
    exact ⟨fun h => if_neg (mt of_decide_eq_true h), fun h => if_pos (decide_eq_true h)⟩
  · refine StatusCode.report_of_frameError ?_
    cases c <;> revert hc <;> decide

end

section
/-! What each power operation answers, outcome by outcome (41_power_fsm.md R97 to R100): the other direction of
the case lemmas, in the fields of PSR. -/

namespace Sys2Proof.Machine

/-- An error completion never reports success. -/
theorem State.raise_status_ne_ok (s : State) (f : Family) (e : Err) : (s.raise f e).status ≠ 0x00 :=
  e.status_ne_ok

/-! PS_HARD (R97). -/

theorem execPsHard_of_noLine {s : State} (hl : s.hasPline = false) (down : Bool) :
    execPsHard down s = .next (s.raise .power .noHardPowerControl) := by
  simp [execPsHard, psHardError, hl]

theorem execPsHard_of_open {s : State} (hl : s.hasPline = true) (hx : s.xact = true) (down : Bool) :
    execPsHard down s = .next (s.raise .power .sequenceXactOpen) := by
  simp [execPsHard, psHardError, hl, hx]

theorem execPsHard_of_closed {s : State} (hl : s.hasPline = true) (hx : s.xact = false) (down : Bool) :
    execPsHard down s = .next (if down then powerDown s else powerUp s).complete := by
  simp [execPsHard, psHardError, hl, hx]

theorem execPsHard_down {s : State} (hl : s.hasPline = true) (hx : s.xact = false) :
    execPsHard true s = .next { s with
      psr := psrByte false s.xinit s.xresp false false false PState.hardDown.code,
      action := Action.none.code, status := 0x00, info := 0x00 } := by
  rw [execPsHard_of_closed hl hx, if_pos rfl, powerDown_eq, hx]

theorem execPsHard_up_of_down {s : State} (hl : s.hasPline = true) (hx : s.xact = false)
    (hd : s.pstate = PState.hardDown.code) :
    execPsHard false s = .next { s with
      psr := psrByte true s.xinit s.xresp false false false PState.active.code,
      action := Action.runInit.code, status := 0x00, info := 0x00 } := by
  rw [execPsHard_of_closed hl hx, if_neg Bool.false_ne_true, powerUp_eq hd, hx]

theorem execPsHard_up_of_up {s : State} (hl : s.hasPline = true) (hx : s.xact = false)
    (hd : s.pstate ≠ PState.hardDown.code) :
    execPsHard false s = .next { s with action := Action.none.code, status := 0x00, info := 0x00 } := by
  rw [execPsHard_of_closed hl hx, if_neg Bool.false_ne_true, powerUp_eq_of_up hd]

/-- A successful PS_HARD had a line and no open exchange. -/
theorem execPsHard_of_success {down : Bool} {s t : State} (h : execPsHard down s = .next t)
    (ht : t.status = 0x00) : s.hasPline = true ∧ s.xact = false := by
  obtain ⟨-, rfl⟩ | ⟨-, -, rfl⟩ | ⟨hl, hx, -⟩ | ⟨hl, hx, -⟩ := execPsHard_cases h
  · exact absurd ht (State.raise_status_ne_ok _ _ _)
  · exact absurd ht (State.raise_status_ne_ok _ _ _)
  · exact ⟨hl, hx⟩
  · exact ⟨hl, hx⟩

/-- A power-down of a state that holds what it writes changes nothing. -/
theorem execPsHard_down_of_settled {t : State} (hl : t.hasPline = true)
    (hpsr : t.psr = psrByte false t.xinit t.xresp false false false PState.hardDown.code)
    (haction : t.action = Action.none.code) (hstatus : t.status = 0x00) (hinfo : t.info = 0x00) :
    execPsHard true t = .next t := by
  obtain ⟨-, -, -, hx, -⟩ := State.fields_of_psr hpsr
  refine (execPsHard_down hl hx).trans (congrArg Host.Outcome.next ?_)
  ext1 <;> simp only [← hpsr, haction, hstatus, hinfo]

theorem execPsHard_down_repeat {s t : State} (h : execPsHard true s = .next t) (ht : t.status = 0x00) :
    execPsHard true t = .next t := by
  obtain ⟨hl, hx⟩ := execPsHard_of_success h ht
  have heq := Host.Outcome.next.inj (h.symm.trans (execPsHard_down hl hx))
  have hpsr := congrArg State.psr heq
  obtain ⟨-, hxinit, hxresp, -⟩ := State.fields_of_psr hpsr
  rw [← hxinit, ← hxresp] at hpsr
  exact execPsHard_down_of_settled ((congrArg State.hasPline heq).trans hl) hpsr
    (congrArg State.action heq) ht (congrArg State.info heq)

/-! PS_ENABLE (R98). -/

theorem execPsEnable_of_down {s : State} (hd : s.pstate = PState.hardDown.code) (en : Bool) :
    execPsEnable en s = .next (s.raise .power .poweredDown) := by
  simp [execPsEnable, psEnableError, hd]

theorem ofBool_setWidth_eight (b : Bool) :
    (BitVec.ofBool b).setWidth 8 = if b = true then (0x01 : Byte) else 0x00 := by
  cases b <;> rfl

theorem execPsEnable_of_up {s : State} (hd : s.pstate ≠ PState.hardDown.code) (en : Bool) :
    execPsEnable en s = .next { s with
      psr := psrByte s.pline s.xinit s.xresp s.xact s.ready en s.pstate,
      result := if s.psReq = true then 0x01 else 0x00,
      action := Action.none.code, status := 0x00, info := 0x00 } := by
  rw [execPsEnable, psEnableError, if_neg hd, enable_eq, ofBool_setWidth_eight]

/-! PS_PRE (R99). -/

theorem psPreError_eq_none {init : Bool} {s : State} (hx : s.xact = false)
    (hd : s.pstate ≠ PState.hardDown.code)
    (hadmit : s.ready = true ∨ init = true ∨ s.params.notReady = .accept) : psPreError init s = none := by
  rw [psPreError, if_neg (by simp [hx]), if_neg hd, if_neg]
  rintro ⟨hready, hinit, hpolicy⟩
  simp [hready, hinit, hpolicy] at hadmit

theorem execPsPre_of_down {s : State} (hx : s.xact = false) (hd : s.pstate = PState.hardDown.code)
    (resp init : Bool) : execPsPre resp init s = .next (s.raise .power .poweredDown) := by
  simp [execPsPre, psPreError, hx, hd]

theorem execPsPre_of_notReady {s : State} (hx : s.xact = false) (hd : s.pstate ≠ PState.hardDown.code)
    (hready : s.ready = false) (hpolicy : s.params.notReady = .reject) (resp : Bool) :
    execPsPre resp false s = .next (s.raise .power .notReady) := by
  simp [execPsPre, psPreError, hx, hd, hready, hpolicy]

theorem execPsPre_of_admitted {init : Bool} {s : State} (he : psPreError init s = none) (resp : Bool) :
    execPsPre resp init s = .next { s with
      psr := psrByte s.pline init resp true s.ready s.psReq
        (if s.pstate = PState.softSave.code then PState.active.code else s.pstate),
      action := if s.pstate = PState.softSave.code then Action.wake.code else Action.none.code,
      status := 0x00, info := 0x00 } := by
  rw [execPsPre, he, openExchange_eq]

/-! PS_POST (R100). -/

/-- R96 and R100: when the exchange that ends is followed by a sleep. -/
theorem sleeps_iff {ok xresp stest psReq : Bool} : eligible ok xresp stest = true ∧ psReq = true ↔
    ok = true ∧ xresp = true ∧ stest = false ∧ psReq = true := by
  simp [eligible, and_assoc]

theorem execPsPost_of_open {s : State} (hx : s.xact = true) (ok stest : Bool) :
    execPsPost ok stest s = .next { s with
      psr := psrByte s.pline s.xinit s.xresp false (if s.xinit = true then ok else s.ready) s.psReq
        (if eligible ok s.xresp stest = true ∧ s.psReq = true then PState.softSave.code else s.pstate),
      action := if eligible ok s.xresp stest = true ∧ s.psReq = true then Action.sleep.code
        else Action.none.code,
      status := 0x00, info := 0x00 } := by
  rw [execPsPost, psPostError, if_neg (by simp [hx]), closeExchange_eq]

end Sys2Proof.Machine

open Sys2Proof Sys2Proof.Machine

/-- Settles O25, outcome by outcome. -/
theorem psHardFollowsItsRule : Obligations.PsHardFollowsItsRule := by
  refine ⟨decode_encode (.psHard true), decode_encode (.psHard false), rfl, rfl,
    fun s down hl => execPsHard_of_noLine hl down, fun s down hl hx => execPsHard_of_open hl hx down,
    fun _ => execPsHard_down, fun _ => execPsHard_up_of_down, fun _ => execPsHard_up_of_up,
    fun _ _ => execPsHard_down_repeat, fun s hl hpsr => ?_⟩
  obtain ⟨-, hxinit, hxresp, hx, -⟩ :=
    State.fields_of_psr (hpsr.trans (show 0x84 = psrByte true false false false false true 0 by decide))
  refine (execPsHard_down hl hx).trans ?_
  rw [hxinit, hxresp]
  rfl

/-- Settles O26, outcome by outcome. -/
theorem psEnableFollowsItsRule : Obligations.PsEnableFollowsItsRule := by
  refine ⟨decode_encode (.psEnable true), decode_encode (.psEnable false), rfl, rfl,
    fun s en hd => execPsEnable_of_down hd en, fun s en hd => execPsEnable_of_up hd en, fun s hpsr => ?_⟩
  obtain ⟨hpline, hxinit, hxresp, hx, hready, hreq, hp⟩ :=
    State.fields_of_psr (hpsr.trans (show 0x88 = psrByte true false false false true false 0 by decide))
  refine (execPsEnable_of_up (by rw [hp]; decide) true).trans ?_
  rw [hpline, hxinit, hxresp, hx, hready, hreq, hp]
  rfl

/-- Settles O27, outcome by outcome. -/
theorem psPreFollowsItsRule : Obligations.PsPreFollowsItsRule := by
  refine ⟨fun resp init => decode_encode (.psPre resp init), rfl, rfl, rfl, rfl,
    fun s resp init hx => execPsPre_of_open hx resp init,
    fun s resp init hx hd => execPsPre_of_down hx hd resp init,
    fun s resp hx hd hready hpolicy => execPsPre_of_notReady hx hd hready hpolicy resp,
    fun s resp init hx hd hadmit => execPsPre_of_admitted (psPreError_eq_none hx hd hadmit) resp,
    fun s hpsr => ?_⟩
  obtain ⟨hpline, -, -, hx, hready, hreq, hp⟩ :=
    State.fields_of_psr (hpsr.trans (show 0x8D = psrByte true false false false true true 1 by decide))
  refine (execPsPre_of_admitted (psPreError_eq_none hx (by rw [hp]; decide) (.inl hready)) false).trans ?_
  rw [hpline, hready, hreq, hp]
  rfl

/-- Settles O28, outcome by outcome. -/
theorem psPostFollowsItsRule : Obligations.PsPostFollowsItsRule := by
  refine ⟨fun ok stest => decode_encode (.psPost ok stest), rfl, rfl, rfl, rfl,
    fun s ok stest hx => execPsPost_of_closed hx ok stest, fun s ok stest hx hsleep => ?_,
    fun s ok stest hx hsleep => ?_, fun s hpsr => ?_⟩
  · refine (execPsPost_of_open hx ok stest).trans ?_
    rw [if_pos (sleeps_iff.mpr hsleep), if_pos (sleeps_iff.mpr hsleep)]
    rfl
  · refine (execPsPost_of_open hx ok stest).trans ?_
    rw [if_neg (mt sleeps_iff.mp hsleep), if_neg (mt sleeps_iff.mp hsleep)]
    rfl
  · obtain ⟨hpline, hxinit, hxresp, hx, hready, hreq, hp⟩ :=
      State.fields_of_psr (hpsr.trans (show 0xBC = psrByte true false true true true true 0 by decide))
    refine (execPsPost_of_open hx true false).trans ?_
    rw [hpline, hxinit, hxresp, hready, hreq, hp]
    rfl

end

section
/-! What the power operations ask the host to do, and the sequences of them that a host runs
(41_power_fsm.md R101 to R105). -/

namespace Sys2Proof.Machine

/-! ACTION after each power operation (30_encoding.md R73). -/

theorem execPsHard_action {down : Bool} {s t : State} (h : execPsHard down s = .next t) :
    t.action = Action.none.code ∨ t.action = Action.runInit.code := by
  obtain ⟨-, rfl⟩ | ⟨-, -, rfl⟩ | ⟨-, -, -, rfl⟩ | ⟨-, -, -, rfl⟩ := execPsHard_cases h
  · exact .inl rfl
  · exact .inl rfl
  · exact .inl rfl
  · unfold powerUp
    split_ifs
    · exact .inr rfl
    · exact .inl rfl

theorem execPsEnable_action {en : Bool} {s t : State} (h : execPsEnable en s = .next t) :
    t.action = Action.none.code := by
  obtain ⟨-, rfl⟩ | ⟨-, rfl⟩ := execPsEnable_cases h <;> rfl

/-- A successful PS_PRE opened the exchange. -/
theorem execPsPre_of_success {resp init : Bool} {s t : State} (h : execPsPre resp init s = .next t)
    (ht : t.status = 0x00) : s.pstate ≠ PState.hardDown.code ∧
      t.action = (if s.pstate = PState.softSave.code then Action.wake.code else Action.none.code) ∧
      t.psr = psrByte s.pline init resp true s.ready s.psReq
        (if s.pstate = PState.softSave.code then PState.active.code else s.pstate) := by
  obtain ⟨e, -, -, rfl⟩ | ⟨-, -, hd, rfl⟩ := execPsPre_cases h
  · exact absurd ht (State.raise_status_ne_ok _ _ _)
  · rw [openExchange_eq]
    exact ⟨hd, rfl, rfl⟩

/-- PS_PRE asks for nothing, or wakes a device in SOFT_SAVE. -/
theorem execPsPre_action {resp init : Bool} {s t : State} (h : execPsPre resp init s = .next t) :
    t.action = Action.none.code ∨
    t.action = Action.wake.code ∧ s.pstate = PState.softSave.code ∧ t.pstate = PState.active.code ∧
      t.xact = true := by
  obtain ⟨e, -, -, rfl⟩ | ⟨-, -, -, rfl⟩ := execPsPre_cases h
  · exact .inl rfl
  · unfold wakeIfAsleep
    split_ifs with hsleep
    · exact .inr ⟨rfl, hsleep, by simp, by simp⟩
    · exact .inl rfl

/-- PS_POST asks for nothing, or puts the device to sleep after an eligible exchange. -/
theorem execPsPost_action {ok stest : Bool} {s t : State} (h : execPsPost ok stest s = .next t) :
    t.action = Action.none.code ∨
    t.action = Action.sleep.code ∧ (ok = true ∧ s.xresp = true ∧ stest = false ∧ s.psReq = true) ∧
      s.xact = true ∧ t.pstate = PState.softSave.code := by
  obtain ⟨-, rfl⟩ | ⟨hx, ht⟩ := execPsPost_cases h
  · exact .inl rfl
  · rw [closeExchange_eq] at ht
    obtain ⟨-, -, -, -, -, -, hpstate⟩ := State.fields_of_psr (congrArg State.psr ht)
    have haction := congrArg State.action ht
    by_cases hsleep : eligible ok s.xresp stest = true ∧ s.psReq = true
    · exact .inr ⟨haction.trans (if_pos hsleep), sleeps_iff.mp hsleep, hx, hpstate.trans (if_pos hsleep)⟩
    · exact .inl (haction.trans (if_neg hsleep))

/-- What ACTION can become by an operation: a wake only by PS_PRE from SOFT_SAVE, a sleep only by PS_POST after
an eligible exchange. -/
theorem exec_action_cases {i : Instr} {s t : State} (h : exec i s = .next t) :
    t.action = s.action ∨ t.action = Action.none.code ∨ t.action = Action.runInit.code ∨
    (t.action = Action.wake.code ∧ (∃ resp init, i = .psPre resp init) ∧
      s.pstate = PState.softSave.code ∧ t.pstate = PState.active.code ∧ t.xact = true) ∨
    (t.action = Action.sleep.code ∧ i = .psPost true false ∧ s.xact = true ∧ s.xresp = true ∧
      s.psReq = true ∧ t.pstate = PState.softSave.code) := by
  cases hi : i.isCodec with
  | true => exact .inl (exec_codec_action hi h)
  | false =>
    refine .inr ?_
    obtain ⟨down, rfl⟩ | ⟨en, rfl⟩ | ⟨resp, init, rfl⟩ | ⟨ok, stest, rfl⟩ := power_operation_cases hi
    · exact (execPsHard_action h).imp_right .inl
    · exact .inl (execPsEnable_action h)
    · exact (execPsPre_action h).imp_right fun ⟨hwake, hrest⟩ =>
        .inr (.inl ⟨hwake, ⟨resp, init, rfl⟩, hrest⟩)
    · refine (execPsPost_action h).imp_right fun ⟨hsleep, hcond, hx, hpstate⟩ => .inr (.inr ?_)
      obtain ⟨rfl, hresp, rfl, hreq⟩ := hcond
      exact ⟨hsleep, rfl, hx, hresp, hreq, hpstate⟩

/-! The successes that the sequences are made of. -/

theorem execPsPre_succeeds {init : Bool} {s : State} (he : psPreError init s = none) (resp : Bool) :
    ∃ t, execPsPre resp init s = .next t ∧ t.status = 0x00 ∧
      t.action = (if s.pstate = PState.softSave.code then Action.wake.code else Action.none.code) ∧
      t.psr = psrByte s.pline init resp true s.ready s.psReq
        (if s.pstate = PState.softSave.code then PState.active.code else s.pstate) :=
  ⟨_, execPsPre_of_admitted he resp, rfl, rfl, rfl⟩

theorem execPsPost_succeeds {s : State} (hx : s.xact = true) (ok stest : Bool) :
    ∃ t, execPsPost ok stest s = .next t ∧ t.status = 0x00 ∧
      t.action = (if eligible ok s.xresp stest = true ∧ s.psReq = true then Action.sleep.code
        else Action.none.code) ∧
      t.psr = psrByte s.pline s.xinit s.xresp false (if s.xinit = true then ok else s.ready) s.psReq
        (if eligible ok s.xresp stest = true ∧ s.psReq = true then PState.softSave.code else s.pstate) :=
  ⟨_, execPsPost_of_open hx ok stest, rfl, rfl, rfl⟩

theorem execPsHard_up_succeeds {s : State} (hl : s.hasPline = true) (hx : s.xact = false)
    (hd : s.pstate = PState.hardDown.code) :
    ∃ t, execPsHard false s = .next t ∧ t.status = 0x00 ∧ t.action = Action.runInit.code ∧
      t.psr = psrByte true s.xinit s.xresp false false false PState.active.code :=
  ⟨_, execPsHard_up_of_down hl hx hd, rfl, rfl, rfl⟩

end Sys2Proof.Machine

open Sys2Proof Sys2Proof.Machine

/-- Settles O32: of the ways ACTION can change, only the eligible PS_POST makes it SLEEP. -/
theorem sleepOnlyAfterAnEligibleExchange : Obligations.SleepOnlyAfterAnEligibleExchange := by
  refine ⟨fun i s t h ht hs => ?_, fun s t resp init h ht => ?_, fun s ok stest hresp => ?_⟩
  · obtain ha | ha | ha | ⟨ha, -⟩ | ⟨-, hsleep⟩ := exec_action_cases h
    · exact absurd (ha.symm.trans ht) hs
    · exact absurd (ha.symm.trans ht) (by decide)
    · exact absurd (ha.symm.trans ht) (by decide)
    · exact absurd (ha.symm.trans ht) (by decide)
    · exact hsleep
  · obtain ⟨-, -, hpsr⟩ := execPsPre_of_success h ht
    obtain ⟨-, -, hxresp, -⟩ := State.fields_of_psr hpsr
    exact hxresp
  · obtain ⟨t, h⟩ := execPsPost_next ok stest s
    obtain hnone | ⟨-, ⟨-, hxresp, -⟩, -⟩ := execPsPost_action h
    · exact ⟨t, h, hnone⟩
    · exact absurd (hresp.symm.trans hxresp) Bool.false_ne_true

/-- Settles O33: of the ways ACTION can change, only PS_PRE from SOFT_SAVE makes it WAKE, and a successful one
always does. -/
theorem wakeExactlyFromSoftSave : Obligations.WakeExactlyFromSoftSave := by
  refine ⟨fun s t resp init h ht => ?_, fun i s t h ht hs => ?_⟩
  · obtain ⟨-, haction, hpsr⟩ := execPsPre_of_success h ht
    obtain ⟨-, -, -, -, -, hreq, -⟩ := State.fields_of_psr hpsr
    refine ⟨?_, hreq⟩
    by_cases hsleep : s.pstate = PState.softSave.code
    · exact iff_of_true (haction.trans (if_pos hsleep)) hsleep
    · rw [if_neg hsleep] at haction
      exact iff_of_false (haction ▸ by decide) hsleep
  · obtain ha | ha | ha | ⟨-, hpre, hsleep, hawake, hx⟩ | ⟨ha, -⟩ := exec_action_cases h
    · exact absurd (ha.symm.trans ht) hs
    · exact absurd (ha.symm.trans ht) (by decide)
    · exact absurd (ha.symm.trans ht) (by decide)
    · exact ⟨hsleep, hawake, hx, hpre⟩
    · exact absurd (ha.symm.trans ht) (by decide)

/-- Settles O34, operation by operation: each state has the fields that the next operation needs. -/
theorem powerSaveRoundTrip : Obligations.PowerSaveRoundTrip := by
  intro s hp hreq hready hx
  have hadmit := psPreError_eq_none (init := false) hx (by rw [hp]; decide) (.inl hready)
  obtain ⟨s1, hpre, hstatus1, haction1, hpsr1⟩ := execPsPre_succeeds hadmit true
  rw [hp] at haction1 hpsr1
  obtain ⟨-, hxinit1, hxresp1, hx1, hready1, hreq1, -⟩ := State.fields_of_psr hpsr1
  obtain ⟨s2, hpost, hstatus2, haction2, hpsr2⟩ := execPsPost_succeeds hx1 true false
  have hsleep : eligible true s1.xresp false = true ∧ s1.psReq = true :=
    sleeps_iff.mpr ⟨rfl, hxresp1, rfl, hreq1.trans hreq⟩
  rw [if_pos hsleep] at haction2 hpsr2
  obtain ⟨-, -, -, hx2, hready2, -, hp2⟩ := State.fields_of_psr hpsr2
  rw [hxinit1, if_neg Bool.false_ne_true, hready1, hready] at hready2
  refine ⟨s1, s2, hpre, hstatus1, haction1, hpost, hstatus2, haction2, hp2, fun resp init => ?_⟩
  obtain ⟨s3, hwake, hstatus3, haction3, hpsr3⟩ :=
    execPsPre_succeeds (psPreError_eq_none (init := init) hx2 (by rw [hp2]; decide) (.inl hready2)) resp
  rw [hp2] at haction3 hpsr3
  obtain ⟨-, -, -, -, -, -, hp3⟩ := State.fields_of_psr hpsr3
  exact ⟨s3, hwake, hstatus3, haction3, hp3⟩

/-- Settles O35, operation by operation: the init exchange is admitted without READY, and its end sets it. -/
theorem powerUpThenInitialization : Obligations.PowerUpThenInitialization := by
  intro s hl hd hx
  obtain ⟨s1, hup, -, haction1, hpsr1⟩ := execPsHard_up_succeeds hl hx hd
  obtain ⟨-, -, -, hx1, hready1, hreq1, hp1⟩ := State.fields_of_psr hpsr1
  refine ⟨s1, hup, haction1, hp1, hreq1, hready1, fun resp => ?_⟩
  have hadmit := psPreError_eq_none (init := true) hx1 (by rw [hp1]; decide) (.inr (.inl rfl))
  obtain ⟨s2, hpre, hstatus2, haction2, hpsr2⟩ := execPsPre_succeeds hadmit resp
  rw [hp1] at haction2
  obtain ⟨-, hxinit2, -, hx2, -⟩ := State.fields_of_psr hpsr2
  refine ⟨s2, hpre, hstatus2, haction2, fun ok stest => ?_⟩
  obtain ⟨s3, hpost, hstatus3, -, hpsr3⟩ := execPsPost_succeeds hx2 ok stest
  obtain ⟨-, -, -, -, hready3, -⟩ := State.fields_of_psr hpsr3
  exact ⟨s3, hpost, hstatus3, hready3.trans (if_pos hxinit2)⟩

end

section
/-! The source's state machine (41_power_fsm.md R95), in the source's own state (10_state.md R33). -/

namespace Sys2Proof.Machine

/-! How the source's state reads from PSTATE. -/

theorem State.sourcePower_of_down {s : State} (hd : s.pstate = PState.hardDown.code) :
    s.sourcePower = .hardDown := if_pos hd

theorem State.sourcePower_of_up {s : State} (hd : s.pstate ≠ PState.hardDown.code) :
    s.sourcePower = .active s.psReq (decide (s.pstate = PState.softSave.code)) := if_neg hd

theorem State.sourcePower_of_active {s : State} (hp : s.pstate = PState.active.code) :
    s.sourcePower = .active s.psReq false := by
  rw [State.sourcePower, hp]
  rfl

theorem State.sourcePower_of_asleep {s : State} (hp : s.pstate = PState.softSave.code) :
    s.sourcePower = .active s.psReq true := by
  rw [State.sourcePower, hp]
  rfl

theorem State.sourcePower_of_psr_eq {s t : State} (h : t.psr = s.psr) : t.sourcePower = s.sourcePower := by
  obtain ⟨-, -, -, -, -, hreq, hp⟩ := State.fields_eq_of_psr_eq h
  rw [State.sourcePower, State.sourcePower, hp, hreq]

/-! The transitions of R95. -/

theorem execPsHard_down_transition {s t : State} (h : execPsHard true s = .next t) (ht : t.status = 0x00) :
    t.sourcePower = .hardDown ∧ t.action = Action.none.code := by
  obtain ⟨hl, hx⟩ := execPsHard_of_success h ht
  have heq := Host.Outcome.next.inj (h.symm.trans (execPsHard_down hl hx))
  obtain ⟨-, -, -, -, -, -, hp⟩ := State.fields_of_psr (congrArg State.psr heq)
  exact ⟨State.sourcePower_of_down hp, congrArg State.action heq⟩

theorem execPsHard_up_transition {s t : State} (h : execPsHard false s = .next t) (ht : t.status = 0x00) :
    (s.sourcePower = .hardDown ∧ t.sourcePower = .active false false ∧
      t.action = Action.runInit.code) ∨
    (s.sourcePower ≠ .hardDown ∧ t.sourcePower = s.sourcePower ∧ t.action = Action.none.code) := by
  obtain ⟨hl, hx⟩ := execPsHard_of_success h ht
  by_cases hd : s.pstate = PState.hardDown.code
  · have heq := Host.Outcome.next.inj (h.symm.trans (execPsHard_up_of_down hl hx hd))
    obtain ⟨-, -, -, -, -, hreq, hp⟩ := State.fields_of_psr (congrArg State.psr heq)
    refine .inl ⟨State.sourcePower_of_down hd, ?_, congrArg State.action heq⟩
    rw [State.sourcePower_of_active hp, hreq]
  · have heq := Host.Outcome.next.inj (h.symm.trans (execPsHard_up_of_up hl hx hd))
    have hpsr := congrArg State.psr heq
    refine .inr ⟨?_, State.sourcePower_of_psr_eq hpsr, congrArg State.action heq⟩
    rw [State.sourcePower_of_up hd]
    exact SourcePower.noConfusion

theorem execPsEnable_transition {en : Bool} {s t : State} (h : execPsEnable en s = .next t)
    (ht : t.status = 0x00) :
    ∃ req asleep, s.sourcePower = .active req asleep ∧ t.sourcePower = .active en asleep ∧
      t.action = Action.none.code := by
  obtain ⟨-, rfl⟩ | ⟨hd, rfl⟩ := execPsEnable_cases h
  · exact absurd ht (State.raise_status_ne_ok _ _ _)
  · refine ⟨_, _, State.sourcePower_of_up hd, ?_, rfl⟩
    rw [State.sourcePower_of_up (by simpa using hd)]
    simp

theorem execPsPre_transition {resp init : Bool} {s t : State} (hs : PowerInv s)
    (h : execPsPre resp init s = .next t) (ht : t.status = 0x00) :
    ∃ req asleep, s.sourcePower = .active req asleep ∧ t.sourcePower = .active req false ∧
      t.action = if asleep = true then Action.wake.code else Action.none.code := by
  obtain ⟨hd, haction, hpsr⟩ := execPsPre_of_success h ht
  obtain ⟨-, -, -, -, -, hreq, hp⟩ := State.fields_of_psr hpsr
  obtain hactive | hasleep | hdown := hs.pstate_cases
  · rw [hactive] at haction hp
    exact ⟨_, _, State.sourcePower_of_active hactive, hreq ▸ State.sourcePower_of_active hp, haction⟩
  · rw [hasleep] at haction hp
    exact ⟨_, _, State.sourcePower_of_asleep hasleep, hreq ▸ State.sourcePower_of_active hp, haction⟩
  · exact absurd hdown hd

/-- Under R34 the exchange that ends finds the device active. -/
theorem execPsPost_transition {ok stest : Bool} {s t : State} (hs : PowerInv s)
    (h : execPsPost ok stest s = .next t) (ht : t.status = 0x00) :
    ∃ req, s.sourcePower = .active req false ∧
      t.sourcePower = .active req (eligible ok s.xresp stest && req) ∧
      t.action = if (eligible ok s.xresp stest && req) = true then Action.sleep.code
        else Action.none.code := by
  obtain ⟨-, rfl⟩ | ⟨hx, heq⟩ := execPsPost_cases h
  · exact absurd ht (State.raise_status_ne_ok _ _ _)
  · rw [closeExchange_eq] at heq
    obtain ⟨-, -, -, -, -, hreq, hp⟩ := State.fields_of_psr (congrArg State.psr heq)
    have haction := congrArg State.action heq
    have hactive := hs.openActive hx
    refine ⟨_, State.sourcePower_of_active hactive, ?_, by simpa using haction⟩
    by_cases hsleep : eligible ok s.xresp stest = true ∧ s.psReq = true
    · rw [State.sourcePower_of_asleep (hp.trans (if_pos hsleep)), hreq, hsleep.1, hsleep.2]
      rfl
    · rw [State.sourcePower_of_active (hp.trans ((if_neg hsleep).trans hactive)), hreq,
        Bool.eq_false_iff.mpr (mt Bool.and_eq_true_iff.mp hsleep)]

/-- A failed operation writes no field of PSR (60_exceptions.md R119). -/
theorem exec_failed_psr {i : Instr} {s t : State} (h : exec i s = .next t) (ht : t.status ≠ 0x00) :
    t.psr = s.psr := by
  cases hi : i.isCodec with
  | true => exact exec_codec_psr hi h
  | false =>
    obtain ⟨e, -, rfl⟩ | ⟨p, a, r, rfl⟩ := exec_power_cases hi h
    · rfl
    · exact absurd rfl ht

end Sys2Proof.Machine

open Sys2Proof Sys2Proof.Machine

/-- Settles O37, one transition lemma for each operation of the table. -/
theorem powerOperationsFollowTheTransitionTable : Obligations.PowerOperationsFollowTheTransitionTable :=
  fun _ _ hs => ⟨execPsHard_down_transition, execPsHard_up_transition, fun _ => execPsEnable_transition,
    fun _ _ => execPsPre_transition hs, fun _ _ => execPsPost_transition hs,
    fun _ h ht => State.sourcePower_of_psr_eq (exec_failed_psr h ht)⟩

end

section
/-! How an operation ends (60_exceptions.md R108 to R119): it completes with success or with one error of its
own, or it stops on an unwritten operand. -/

namespace Sys2Proof.Machine

/-! An operation that completes. -/

/-- The family an operation reports its errors for (30_encoding.md R54). -/
def familyOf (i : Instr) : Family := if i.isCodec = true then .codec else .power

/-- An operation that completes has succeeded, or taken the error completion of one of its own errors. -/
theorem exec_completion {i : Instr} {s t : State} (h : exec i s = .next t) :
    (t.status = 0x00 ∧ t.info = 0x00) ∨ ∃ e, e ∈ raisedBy i ∧ t = s.raise (familyOf i) e := by
  unfold familyOf
  cases hi : i.isCodec with
  | true =>
    obtain hfail | ⟨-, v, rfl⟩ | ⟨-, d, p, r, -, -, rfl⟩ | ⟨-, p, -, rfl⟩ := exec_codec_cases hi h
    · exact .inr hfail
    all_goals exact .inl ⟨rfl, rfl⟩
  | false =>
    obtain hfail | ⟨p, a, r, rfl⟩ := exec_power_cases hi h
    · exact .inr hfail
    · exact .inl ⟨rfl, rfl⟩

/-- The frame of an operation's error completion (60_exceptions.md R119). -/
theorem raise_familyOf (s : State) (i : Instr) (e : Err) : s.raise (familyOf i) e = { s with
    status := e.status, info := e.info, action := if i.isCodec = true then s.action else 0x00 } := by
  rw [State.raise_eq, familyOf]
  cases i.isCodec <;> rfl

/-- No operation raises IllegalOperation, the error of a request word (60_exceptions.md R113). -/
theorem raisedBy_not_illegal {i : Instr} : ∀ e ∈ raisedBy i, e.statusCode ≠ .illegalOperation := by
  cases i <;> simp only [raisedBy] <;> decide

/-! An operation that stops. -/

/-- With readable IBUF operands a build completes. -/
theorem buildFrame_next_of_operandIs (wrap : Bytes → Bytes) {s : State} {b : Bytes} (hb : OperandIs s b) :
    ∃ t, buildFrame wrap s = .next t := by
  rw [buildFrame, withOperands_of_operandIs hb, ← apply_ite Host.Outcome.next, ← apply_ite Host.Outcome.next]
  exact ⟨_, rfl⟩

/-- With readable IBUF operands an operation that takes them completes. -/
theorem exec_next_of_operandIs {i : Instr} (hi : i.readsIbuf = true) {s : State} {b : Bytes}
    (hb : OperandIs s b) : ∃ t, exec i s = .next t := by
  cases i with
  | csum => exact ⟨_, execCsum_of_operandIs hb⟩
  | ackchk => exact ⟨_, execAckchk_of_operandIs hb⟩
  | mkcmd | mkdx => exact buildFrame_next_of_operandIs _ hb
  | decD2h | decH2d | decAck => exact ⟨_, decodeFrame_of_operandIs hb _⟩
  | enc | psHard | psEnable | psPre | psPost => cases hi

/-- An operation with IBUF operands completes, or faults on an unwritten one. -/
theorem exec_readsIbuf_cases {i : Instr} (hi : i.readsIbuf = true) (s : State) :
    (∃ t, exec i s = .next t) ∨
    ∃ n, n < s.ilen.toNat ∧ Memory.read s.ibuf n = none ∧ exec i s = .fault (.unwrittenRead .ibuf n) := by
  obtain ⟨k, hk⟩ := exec_eq_withOperands hi s
  obtain ⟨-, hw⟩ | ⟨n, -, hn, hr, -, hw⟩ | ⟨b, hb, -⟩ := withOperands_cases s k
  · exact .inl ⟨_, hk.trans hw⟩
  · exact .inr ⟨n, hn, hr, hk.trans hw⟩
  · exact .inl (exec_next_of_operandIs hi hb)

/-- ENC completes, or a read of the held frame faults. -/
theorem execEnc_stops (s : State) :
    (∃ t, execEnc s = .next t) ∨
    (s.fvalid = true ∧ ∃ f, s.memRead .fbuf 0 s.flen.toNat = .error f ∧ execEnc s = .fault f) := by
  rw [execEnc]
  obtain ⟨-, hw⟩ | hstop | ⟨p, -, hw⟩ := withFrame_cases s
    fun p => .next (s.putOutput (frameBytes s.fdir p)).complete
  · exact .inl ⟨_, hw⟩
  · exact .inr hstop
  · exact .inl ⟨_, hw⟩

/-- ENC aside, the codec operations are those that take IBUF operands. -/
theorem isCodec_eq_readsIbuf {i : Instr} (hi : i ≠ .enc) : i.isCodec = i.readsIbuf := by
  cases i with
  | enc => exact absurd rfl hi
  | _ => rfl

/-- Everything an operation can answer: a next state, a fault on an unwritten IBUF operand, or ENC's fault on
the held frame. -/
theorem exec_answer_cases (i : Instr) (s : State) :
    (∃ t, exec i s = .next t) ∨
    (i.readsIbuf = true ∧ ∃ n, n < s.ilen.toNat ∧ Memory.read s.ibuf n = none ∧
      exec i s = .fault (.unwrittenRead .ibuf n)) ∨
    (s.fvalid = true ∧ ∃ f, s.memRead .fbuf 0 s.flen.toNat = .error f ∧ exec i s = .fault f) := by
  by_cases henc : i = .enc
  · subst henc
    exact (execEnc_stops s).imp_right .inr
  · cases hi : i.readsIbuf with
    | true => exact (exec_readsIbuf_cases hi s).imp_right fun hstop => .inl ⟨rfl, hstop⟩
    | false => exact .inl (exec_power_next ((isCodec_eq_readsIbuf henc).trans hi) s)

/-- Under the invariant the held frame can be read (20_memory.md R38). -/
theorem BufferInv.memRead_frame_ne_error {s : State} (hs : BufferInv s) (hv : s.fvalid = true) (f : Fault) :
    s.memRead .fbuf 0 s.flen.toNat ≠ .error f := by
  intro hf
  obtain ⟨k, hk, hr, -⟩ := State.memRead_error_inRange (S := .fbuf) hs.flenBound hf
  exact Option.isSome_iff_ne_none.mp (hs.frameWritten hv k hk) hr

end Sys2Proof.Machine

open Sys2Proof Sys2Proof.Machine

/-- Settles O38: a failed operation has taken an error completion, whose frame this is. -/
theorem failedOperationsChangeOnlyTheirReport : Obligations.FailedOperationsChangeOnlyTheirReport := by
  intro i s t h ht
  obtain ⟨e, -, rfl⟩ := (exec_completion h).resolve_left fun hok => ht hok.1
  rw [raise_familyOf]

/-- Settles O39: the errors of operations are those of the table, IllegalOperation being left out of both. -/
theorem everyOperationReportsOneOfItsOutcomes : Obligations.EveryOperationReportsOneOfItsOutcomes := by
  intro i s t h
  refine (exec_completion h).imp_right ?_
  rintro ⟨e, he, rfl⟩
  refine ⟨e, he, ?_⟩
  rw [State.raise_status, State.raise_info]
  have hlegal := raisedBy_not_illegal e he
  cases e with
  | illegalBadOpcode | illegalReservedFlags | illegalBadExpect => exact absurd rfl hlegal
  | _ => decide

/-- Settles O40: of the two faults an operation can answer with, the invariant excludes ENC's. -/
theorem operationsFaultOnlyOnUnwrittenOperands : Obligations.OperationsFaultOnlyOnUnwrittenOperands := by
  refine ⟨fun i s r h => ?_, fun i s f hs h => ?_⟩
  · obtain ⟨t, hx⟩ | ⟨-, n, -, -, hx⟩ | ⟨-, f, -, hx⟩ := exec_answer_cases i s <;> cases hx.symm.trans h
  · obtain ⟨t, hx⟩ | ⟨hi, n, hn, hr, hx⟩ | ⟨hv, g, hg, -⟩ := exec_answer_cases i s
    · cases hx.symm.trans h
    · cases hx.symm.trans h
      exact ⟨hi, n, hn, hr, rfl⟩
    · exact absurd hg (hs.buffer.memRead_frame_ne_error hv g)

end

section
/-! Reset and the hazards between operations (70_reset_and_hazards.md R128 to R144): waiting, construction, the
frame that a failed operation leaves, and an exchange left open. -/

namespace Sys2Proof.Machine

/-! The held frame after an operation that holds none (R142). -/

/-- An operation that fails keeps the held frame, and so does DEC.ACK when it succeeds. -/
theorem exec_keeps_frame {i : Instr} {s t : State} (h : exec i s = .next t)
    (hi : t.status ≠ 0x00 ∨ i = .decAck) :
    t.fbuf = s.fbuf ∧ t.flen = s.flen ∧ t.fdir = s.fdir ∧ t.fsr = s.fsr := by
  obtain hkept | ⟨hbuilds, d, p, r, -, rfl⟩ := exec_frame_cases h
  · exact hkept
  · obtain hfailed | rfl := hi
    · exact absurd rfl hfailed
    · simp at hbuilds

theorem heldFrameIs_of_kept {s t : State} {p : Bytes} (hp : HeldFrameIs s p) (hfbuf : t.fbuf = s.fbuf)
    (hflen : t.flen = s.flen) (hfsr : t.fsr = s.fsr) : HeldFrameIs t p := by
  rwa [HeldFrameIs, State.fvalid, hfsr, hflen, hfbuf]

/-! Closing an exchange that failed, and the power-down after it (R144). -/

/-- PS_POST without OK closes the exchange and never asks for a sleep (41_power_fsm.md R96, R100). -/
theorem execPsPost_not_ok {s : State} (hx : s.xact = true) (stest : Bool) :
    ∃ t, execPsPost false stest s = .next t ∧ t.status = 0x00 ∧ t.action = Action.none.code ∧
      t.xact = false ∧ t.hasPline = s.hasPline := by
  have hpost := execPsPost_of_open hx false stest
  have haction := (execPsPost_action hpost).resolve_right fun ⟨_, ⟨hok, _⟩, _⟩ => Bool.false_ne_true hok
  exact ⟨_, hpost, rfl, haction, execPsPost_closes hpost, rfl⟩

theorem execPsHard_down_succeeds {s : State} (hl : s.hasPline = true) (hx : s.xact = false) :
    ∃ t, execPsHard true s = .next t ∧ t.status = 0x00 ∧
      t.psr = psrByte false s.xinit s.xresp false false false PState.hardDown.code :=
  ⟨_, execPsHard_down hl hx, rfl, rfl⟩

end Sys2Proof.Machine

open Sys2Proof Sys2Proof.Machine

/-- Settles O36: both refusals are error completions, which keep PSR, and once the exchange is closed the checks
of PS_HARD pass. -/
theorem anOpenExchangeBlocksPowerDownUntilClosed : Obligations.AnOpenExchangeBlocksPowerDownUntilClosed := by
  intro s hl hx
  refine ⟨fun down => ⟨_, execPsHard_of_open hl hx down, rfl, rfl, rfl⟩,
    fun resp init => ⟨_, execPsPre_of_open hx resp init, rfl, rfl, rfl⟩, fun stest => ?_⟩
  obtain ⟨t, hpost, hstatus, haction, hclosed, hline⟩ := execPsPost_not_ok hx stest
  obtain ⟨u, hdown, hustatus, hpsr⟩ := execPsHard_down_succeeds (hline.trans hl) hclosed
  obtain ⟨hpline, -, -, -, -, -, hpstate⟩ := State.fields_of_psr hpsr
  exact ⟨t, u, hpost, hstatus, haction, hdown, hustatus, hpstate, hpline⟩

/-- Settles O44: the frame held before is still held, so ENC puts its wire frame. Which operation failed does
not matter. -/
theorem aFailedBuildOrDecodeKeepsThePreviousFrame : Obligations.AFailedBuildOrDecodeKeepsThePreviousFrame := by
  intro i s t p _ hp h hi
  obtain ⟨hfbuf, hflen, hfdir, hfsr⟩ := exec_keeps_frame h hi
  have hheld := heldFrameIs_of_kept hp hfbuf hflen hfsr
  rw [← frameBytes_eq_wireFrame, ← hfdir]
  exact ⟨hheld, rfl, exec_enc_of_heldFrame hheld⟩

/-- Settles O6: a step with nothing pending answers the state it found. -/
theorem anIdleHostLeavesTheBlockWaiting : Obligations.AnIdleHostLeavesTheBlockWaiting :=
  fun _ => step_of_nil

/-- Settles O47: the step is the construction itself, and XACT is read from its PSR. -/
theorem constructionCanComeAtAnyTime : Obligations.ConstructionCanComeAtAnyTime := by
  intro s h rest hp
  obtain ⟨-, -, -, hxact, -⟩ := State.fields_of_psr (State.construct_psr h s.params)
  exact ⟨_, step_of_cons hp, rfl, rfl, rfl, rfl, State.construct_hasPline h s.params, hxact⟩

end
